-- ==== Sys2Proof/Word.lean ====
section
/-! DEFINITION. The words of the D460: bytes of the station ports, belt positions, time stamps, numbers. -/

namespace Sys2Proof

/-- A byte on a station port (R178). -/
abbrev Byte := BitVec 8

/-- A belt position: a 24-bit count that wraps (00_scope.md 1.6.1). -/
abbrev Pos := BitVec 24

/-- A time stamp: a 16-bit millisecond count that wraps (00_scope.md 1.6.2). -/
abbrev Stamp := BitVec 16

/-- A strip number, 1 to 65535; 0 means "no strip" (00_scope.md 1.6.4). -/
abbrev StripNum := BitVec 16

/-- An order id, 1 to 65535 (00_scope.md 1.6.4). -/
abbrev OrderId := BitVec 16

/-- A station port, 0 to 3 (R184). -/
abbrev PortId := Fin 4

/-- A channel code of Table 5-1 (R93). -/
abbrev ChannelId := Fin 14

/-- An order bin, 0 to 9 (R143). -/
abbrev BinId := Fin 10

/-- A bin with a gate and a drop eye, 0 to 10 (R143). -/
abbrev GateId := Fin 11

end Sys2Proof
end

