-- ==== Sys2Proof/Syntax.lean ====
section
/-! DEFINITION. The commands that reach the D460: one constructor for each row of
spec/opcode_table.json. -/

namespace Sys2Proof

/-- Lane A or lane B (00_scope.md 1.6.4). -/
inductive Lane
  | a
  | b
deriving DecidableEq, Repr

/-- What a port command carries of its frame (R178, R180 to R183; log entry 7).
On a port with no frame in progress, `bytes` and `ends` begin the frame with its command byte, so that
`ends params` is a whole frame at once. -/
inductive FrameStep
  /-- Chip select has fallen and the command byte has arrived. -/
  | opens
  /-- Further whole bytes of the frame arrive. -/
  | bytes (bs : List Byte)
  /-- Further whole bytes arrive, and then chip select rises between bytes. -/
  | ends (bs : List Byte)
deriving DecidableEq, Repr

/-- The commands of Table 10-1, by name. -/
inductive Cmd
  | status
  | readEvents
  | roleSet
  | limitsSet
  | marksSet
  | hold
  | resume
  | lineClear
  | removeStrip
  | removeSpan
  | removeLane
  | rejectCleared
  | runoutCleared
  | binService
  | laneStart
  | laneStop
  | laneHold
  | laneRun
  | laneRecipe
  | toolReady
  | laneConfig
  | channelSet
  | mapWrite
  | mapCommit
  | gradeMode
  | verdict
  | gradeEntry
  | orderPut
  | orderSuspend
  | orderResume
  | orderAdd
  | orderCancel
  | orderRetire
  | takeLabel
  | binCleared
  | sampleSet
  | traceRead
  | faultRead
  | stripRead
  | laneRead
  | mapRead
  | channelRead
  | orderRead
  | binRead
deriving DecidableEq, Repr

/-- The levels of the line inputs at power-on (R35, R63, R168, R16). -/
structure InputLevels where
  guardOpen : Bool
  blankReadyA : Bool
  blankReadyB : Bool
  beamCut : Bool
  beltRun : Bool
deriving DecidableEq, Repr

/-- The commands, in the order of spec/opcode_table.json. Arrivals and fire requests name their record
by strip number (and piece index k), fire requests their channel, window ends their bin and piece. -/
inductive Instr
  /-- POWER_ON (R1). Power-on or the RESET pin returns every block to its power-on state; the GUARD cause is set when the guard input is open. -/
  | powerOn (levels : InputLevels)
  /-- FRAME_BREAK (R178). Chip select rises partway through a byte, so the partial byte is discarded and the frame is treated as broken for its kind of command. -/
  | frameBreak (p : PortId)
  /-- UNKNOWN_COMMAND (R180). A command byte whose code is not listed in Table 10-1 gives UNKNOWN_COMMAND, and the frame has no effect. -/
  | unknownCommand (p : PortId) (code : Byte) (st : FrameStep)
  /-- STATUS (R189). Returns the port's role, queue depth and overflow flag together with the part's summary state at the command byte. -/
  | status (p : PortId) (st : FrameStep)
  /-- OVERFLOW_FLAG_RELEASE (R189). When the STATUS byte carrying the overflow flag has been shifted out whole, the port's overflow flag is cleared unless an event was lost since the command byte. -/
  | overflowFlagRelease (p : PortId)
  /-- READ_EVENTS (R188). Fixes a count of up to n queued event records to be returned oldest first. -/
  | readEvents (p : PortId) (st : FrameStep)
  /-- EVENT_RECORD_RELEASE (R188). When the twelfth byte of an event record has been shifted out, the record leaves the head of the queue, and ATTN is deasserted if the queue becomes empty. -/
  | eventRecordRelease (p : PortId)
  /-- ROLE_SET (R184). The supervisor assigns a role to port 1 to 3, and that port's event queue is emptied. -/
  | roleSet (p : PortId) (st : FrameStep)
  /-- LIMITS_SET (R190). Incremental supervisor command carrying groups that set limits; the frame's result is given at its end. -/
  | limitsSet (p : PortId) (st : FrameStep)
  /-- LIMITS_SET_GROUP (R190). A three-byte limit group is examined by the owning block's rule and applied as soon as its last byte arrives. -/
  | limitsSetGroup (p : PortId) (ident : Byte) (value : BitVec 16)
  /-- MARKS_SET (R18). Replaces the whole station mark table when the track is empty, the belt is stopped and all offset checks hold. -/
  | marksSet (p : PortId) (st : FrameStep)
  /-- HOLD (R173). Sets the OPERATOR hold cause. -/
  | hold (p : PortId) (st : FrameStep)
  /-- RESUME (R174). Clears OPERATOR, PHANTOM and STRAY, and clears GUARD when the guard input is closed. -/
  | resume (p : PortId) (st : FrameStep)
  /-- LINE_CLEAR (R28). Removes every record with cause CLEARED, empties the fire schedule and the expected-drop lists, settles DRAINING bins and raises LINE_CLEARED. -/
  | lineClear (p : PortId) (st : FrameStep)
  /-- REMOVE_STRIP (R23). Removes every transit and belt-list record carrying one strip number, with cause REMOVED. -/
  | removeStrip (p : PortId) (st : FrameStep)
  /-- REMOVE_SPAN (R24). Removes every belt-list record whose lead position lies in the given span, with cause REMOVED. -/
  | removeSpan (p : PortId) (st : FrameStep)
  /-- REMOVE_LANE (R25). Removes every record of one lane queue with cause LANE_CLEARED, which may complete a drain. -/
  | removeLane (p : PortId) (st : FrameStep)
  /-- REJECT_CLEARED (R164). Sets the reject bin's dropped count to 0 and clears REJECT_FULL. -/
  | rejectCleared (p : PortId) (st : FrameStep)
  /-- RUNOUT_CLEARED (R165). Sets the runout count to 0 and clears RUNOUT_FULL. -/
  | runoutCleared (p : PortId) (st : FrameStep)
  /-- BIN_SERVICE (R145). Takes a FREE order bin out of service, or puts an OUT_OF_SERVICE bin back to FREE and runs the arbiter. -/
  | binService (p : PortId) (st : FrameStep)
  /-- LANE_START (R33). Takes a lane in OFF into STARTING and starts the start delay. -/
  | laneStart (p : PortId) (st : FrameStep)
  /-- LANE_STOP (R47). Makes the lane OFF when its queue is empty, or DRAIN with target OFF when it is not. -/
  | laneStop (p : PortId) (st : FrameStep)
  /-- LANE_HOLD (R45). Puts the lane into HOLD, discarding any running delay or idle timer. -/
  | laneHold (p : PortId) (st : FrameStep)
  /-- LANE_RUN (R46). Takes a lane in HOLD into RUN. -/
  | laneRun (p : PortId) (st : FrameStep)
  /-- LANE_RECIPE (R49). Applies a recipe at once in OFF; otherwise stores it as pending and starts a drain with target RECIPE. -/
  | laneRecipe (p : PortId) (st : FrameStep)
  /-- TOOL_READY (R50). Takes a lane in TOOL_CHANGE into STARTING with the full start delay. -/
  | toolReady (p : PortId) (st : FrameStep)
  /-- LANE_CONFIG (R51). Incremental command carrying a lane code header followed by lane limit groups. -/
  | laneConfig (p : PortId) (st : FrameStep)
  /-- LANE_CONFIG_GROUP (R51). A lane limit group is applied as soon as its last byte arrives, if it is valid. -/
  | laneConfigGroup (p : PortId) (ident : Byte) (value : BitVec 16)
  /-- CHANNEL_SET (R99). Incremental supervisor command carrying fire channel timing groups. -/
  | channelSet (p : PortId) (st : FrameStep)
  /-- CHANNEL_SET_GROUP (R99). A five-byte timing group becomes the channel's current timing if the channel is IDLE, or its pending timing otherwise. -/
  | channelSetGroup (p : PortId) (channel : Byte) (width recovery : BitVec 16)
  /-- MAP_WRITE (R74). Incremental command whose start group sets the write pointer into the inactive grade-map edition. -/
  | mapWrite (p : PortId) (st : FrameStep)
  /-- MAP_WRITE_GRADE_BYTE (R75). Each grade byte is written at the write pointer, which then advances, unless the edition is busy. -/
  | mapWriteGradeByte (p : PortId) (grade : Byte)
  /-- MAP_COMMIT (R78). Exchanges the active and inactive grade-map editions. -/
  | mapCommit (p : PortId) (st : FrameStep)
  /-- GRADE_MODE (R80). Sets the grading mode to SCANNER or MANUAL. -/
  | gradeMode (p : PortId) (st : FrameStep)
  /-- VERDICT (R82). The scanner's plan and measurements for a strip are examined at frame end and, if they pass, plan the strip. -/
  | verdict (p : PortId) (st : FrameStep)
  /-- GRADE_ENTRY (R82). The supervisor's manual plan for a strip is examined like a verdict and taken with source MANUAL. -/
  | gradeEntry (p : PortId) (st : FrameStep)
  /-- ORDER_PUT (R130). Accepts a new order as QUEUED at the tail of the book and runs the arbiter. -/
  | orderPut (p : PortId) (st : FrameStep)
  /-- ORDER_SUSPEND (R132). Makes a QUEUED or ACTIVE order SUSPENDED while it keeps its bins. -/
  | orderSuspend (p : PortId) (st : FrameStep)
  /-- ORDER_RESUME (R133). Returns a SUSPENDED order to ACTIVE or QUEUED and runs the arbiter. -/
  | orderResume (p : PortId) (st : FrameStep)
  /-- ORDER_ADD (R134). Raises an order's bundles ordered by n and runs the arbiter. -/
  | orderAdd (p : PortId) (st : FrameStep)
  /-- ORDER_CANCEL (R135). Cancels an order, draining its OPEN bins, and makes it CANCELLING or CANCELLED. -/
  | orderCancel (p : PortId) (st : FrameStep)
  /-- ORDER_RETIRE (R136). Deletes a COMPLETE or CANCELLED order from the book. -/
  | orderRetire (p : PortId) (st : FrameStep)
  /-- TAKE_LABEL (R162). Returns the label held in the slot named by the take indicator. -/
  | takeLabel (p : PortId) (st : FrameStep)
  /-- LABEL_RELEASE (R162). When the last label byte has been shifted out, the slot is freed, the take indicator moves and composition proceeds. -/
  | labelRelease (p : PortId)
  /-- BIN_CLEARED (R163). Zeroes a LABELLED bin's contents and either refills it for its order or unbinds it to FREE. -/
  | binCleared (p : PortId) (st : FrameStep)
  /-- SAMPLE_SET (R191). Sets the trace sample interval and resets the sample counter. -/
  | sampleSet (p : PortId) (st : FrameStep)
  /-- TRACE_READ (R195). Returns a HELD trace log, or NOT_YET when no trace is held. -/
  | traceRead (p : PortId) (st : FrameStep)
  /-- TRACE_RELEASE (R195). When the last trace byte has been shifted out, the log is freed and the trace state becomes NONE. -/
  | traceRelease (p : PortId)
  /-- FAULT_READ (R197). Returns the held fault record, or NOT_FOUND when the record is empty. -/
  | faultRead (p : PortId) (st : FrameStep)
  /-- FAULT_RECORD_RELEASE (R197). When the last fault byte has been shifted out, the fault record becomes empty. -/
  | faultRecordRelease (p : PortId)
  /-- STRIP_READ (R29). Returns the strip record or piece records carrying a strip number. -/
  | stripRead (p : PortId) (st : FrameStep)
  /-- LANE_READ (R53). Returns a lane's state, recipes, limits, input and output levels and queue. -/
  | laneRead (p : PortId) (st : FrameStep)
  /-- MAP_READ (R79). Returns the active edition, the grading mode, the reference counts and n grade codes. -/
  | mapRead (p : PortId) (st : FrameStep)
  /-- CHANNEL_READ (R110). Returns the guard level, the schedule occupancy and each channel's state and timing. -/
  | channelRead (p : PortId) (st : FrameStep)
  /-- ORDER_READ (R137). Returns one order record, or the book summary for order id 0. -/
  | orderRead (p : PortId) (st : FrameStep)
  /-- BIN_READ (R167). Returns a bin's state, contents and expected-drop list together with the label information. -/
  | binRead (p : PortId) (st : FrameStep)
  /-- BLANK_READY_ACTIVE (R35). A lane's BLANK_READY input becomes active, which sets the blank-waiting flag and may release a blank or end STANDBY. -/
  | blankReadyActive (l : Lane)
  /-- BLANK_READY_INACTIVE (R35). BLANK_READY becomes inactive, which clears the blank-waiting flag and may start the idle timer. -/
  | blankReadyInactive (l : Lane)
  /-- EXIT_EYE_LEAD_EDGE (R42). A lane exit eye lead edge makes the front record AT_EXIT, and its merge request may be granted. -/
  | exitEyeLeadEdge (l : Lane)
  /-- ENTRY_EYE_LEAD_EDGE (R64). An entry eye lead edge moves the oldest transit record to the belt list as MEASURING with its lead position. -/
  | entryEyeLeadEdge
  /-- ENTRY_EYE_TRAIL_EDGE (R65). An entry eye trail edge ends the object, measuring its record, or is held until the next belt advance. -/
  | entryEyeTrailEdge
  /-- ENCODER_FORWARD_COUNT (R14). A forward encoder count pays off backlash or advances the belt position by one. -/
  | encoderForwardCount
  /-- ENCODER_REVERSE_COUNT (R15). A reverse encoder count raises the backlash count, up to 65535. -/
  | encoderReverseCount
  /-- DEADLINE_ARRIVAL (R88). A strip arrives at DEADLINE; an AWAIT_GRADE strip is planned by default and VERDICT_LATE is raised. -/
  | deadlineArrival (n : StripNum)
  /-- TRIM_ARRIVAL (R112). A PLANNED strip arrives at TRIM and is split into pieces, with its saw and end-match strokes scheduled. -/
  | trimArrival (n : StripNum)
  /-- SORT_ARRIVAL (R147). A piece arrives at SORT and is assigned to the reject bin or an eligible order bin, or made RIDING. -/
  | sortArrival (n : StripNum) (k : Nat)
  /-- RUNOUT_ARRIVAL (R165). A piece arrives at RUNOUT, is removed with cause RUNOUT, and the runout count rises. -/
  | runoutArrival (n : StripNum) (k : Nat)
  /-- FIRE_REQUEST (R104). A fire schedule entry falls due, is sent to its channel, is FIRED or MISSED, and its outcome is reported and handed on. -/
  | fireRequest (c : ChannelId)
  /-- TRANSIT_TIMEOUT (R61). The oldest transit record's timeout is reached, and it is removed as MISSING with a fault and a FAULT event. -/
  | transitTimeout
  /-- GAP_OPEN_SET (R56). The belt reaches the last-grant position plus MERGE_GAP, the gap-open flag is set, and a standing request may be granted. -/
  | gapOpenSet
  /-- OVER_LENGTH_CUT_OFF (R69). A MEASURING strip still covering the eye after more than MAX_STRIP of travel is cut off and planned as out of range LONG. -/
  | overLengthCutOff
  /-- WINDOW_END (R156). An expected-drop entry's window end is reached, so its piece is a MISDROP, its commitment is lowered and it becomes RIDING. -/
  | windowEnd (b : GateId) (n : StripNum) (k : Nat)
  /-- DROP_EYE_PULSE (R153). A drop eye pulse takes the oldest expected piece of the bin as dropped and updates the bundle contents. -/
  | dropEyePulse (b : GateId)
  /-- GUARD_OPEN (R100). The guard input opens, so every fire output goes inactive, pulses are cut short, GUARD_TRIP is reported and GUARD is set. -/
  | guardOpen
  /-- GUARD_CLOSE (R101). The guard input closes and the channels answer fire requests again; the GUARD cause is kept. -/
  | guardClose
  /-- DELAY_TIMER_RUN_OUT (R34). The start or resume delay runs out and the lane enters RUN, possibly releasing a waiting blank. -/
  | delayTimerRunOut (l : Lane)
  /-- IDLE_TIMER_RUN_OUT (R39). The idle timer runs out and the lane enters STANDBY with FEED inactive. -/
  | idleTimerRunOut (l : Lane)
  /-- RELEASE_PULSE_END (R38). The release pulse timer runs out, RELEASE goes inactive, and the release conditions are tested again. -/
  | releasePulseEnd (l : Lane)
  /-- OUTFEED_PULSE_END (R44). The outfeed pulse timer runs out, OUTFEED goes inactive, and a merge request may come to stand. -/
  | outfeedPulseEnd (l : Lane)
  /-- FIRE_PULSE_END (R96). A channel's pulse ends, its output goes inactive, and it enters RECOVERING, or IDLE when the recovery is 0. -/
  | firePulseEnd (c : ChannelId)
  /-- FIRE_RECOVERY_END (R96). A channel's recovery ends, it enters IDLE and takes any pending timing. -/
  | fireRecoveryEnd (c : ChannelId)
  /-- BELT_RUN_CHANGE (R16). The BELT_RUN input becomes active or inactive, changing the belt running level reported in STATUS and the permission for REMOVE_STRIP, REMOVE_SPAN, REMOVE_LANE, LINE_CLEAR and MARKS_SET. -/
  | beltRunChange (active : Bool)
deriving DecidableEq, Repr

end Sys2Proof
end

