-- ==== Sys2Proof/Config.lean ====
section
/-! DEFINITION. The free values: what the manual leaves open. None has a body, so a claim that is proved
holds whatever they are. -/

namespace Sys2Proof

/-- R37: when both lanes wait and one event lets each of them ask, "either lane may be served first".
The n-th such choice serves lane A first when this is true (log entry 10). -/
opaque Config.laneAFirst : Nat → Bool

/-- R20, R104: events that come due together "may be taken in either order". The n-th time the block
itself takes one of several due events, this number picks among them (log entry 4). -/
opaque Config.duePick : Nat → Nat

/-- Table 10-12 gives the guard's level one byte and does not say which level is 1. True when an open
guard is sent as 1 and a closed one as 0 (log entry 14). -/
opaque Config.guardOpenSentAsOne : Bool

end Sys2Proof
end

