-- ==== Sys2Proof/Machine/State.lean ====
section
/-! DEFINITION. The state of the D460: one structure for each functional block of Table 1-1, the queue of
waiting commands, and the state after reset. -/

namespace Sys2Proof.Machine

/-- One thing of each lane. -/
structure PerLane (α : Type) where
  a : α
  b : α
deriving DecidableEq, Repr

/-- The two grade-map editions (R71). -/
inductive Edition
  | e0
  | e1
deriving DecidableEq, Repr

/-- A commercial grade G0 to G7, REJECT or REGRADE (00_scope.md 1.6.4). -/
inductive Grade
  | commercial (g : Fin 8)
  | reject
  | regrade
deriving DecidableEq, Repr

/-- Why a piece is to be rejected or regraded (Table 1-6). -/
inductive Reason
  | width
  | thickness
  | length
  | moisture
  | defaulted
  | trimFault
  | endFault
  | short
  | rejectGrade
  | regradeGrade
deriving DecidableEq, Repr

/-- Where a plan came from (Table 1-4). -/
inductive PlanSource
  | scanner
  | manual
  | default
deriving DecidableEq, Repr

/-! ## The strip track (R1 to R29) -/

/-- A keep segment of a plan: start offset, end offset (qmm) and face class (Table 1-4). -/
structure Segment where
  start : Nat
  stop : Nat
  faceClass : Nat
deriving DecidableEq, Repr

/-- A plan grade override with its reason (Table 1-4). -/
structure Override where
  grade : Grade
  reason : Reason
deriving DecidableEq, Repr

/-- The plan, its source and its override, which are set together (Table 1-4). -/
structure Plan where
  segments : List Segment
  source : PlanSource
  override : Option Override
deriving DecidableEq, Repr

/-- The states of a strip record (Table 1-5). -/
inductive StripState
  | inMoulder
  | atExit
  | transit
  | measuring
  | awaitGrade
  | planned
deriving DecidableEq, Repr

/-- A strip record (R2, Table 1-4). -/
structure StripRec where
  number : StripNum
  lane : Lane
  profile : Nat
  widthNominal : Nat
  thicknessNominal : Nat
  edition : Edition
  state : StripState
  grantPos : Option Pos
  lead : Option Pos
  length : Option Nat
  outOfRange : Bool
  width : Option Nat
  thickness : Option Nat
  moisture : Option Nat
  plan : Option Plan
  traced : Bool
deriving DecidableEq, Repr

/-- The states of a piece record; the bin is present exactly while ASSIGNED (R5, Table 1-6). -/
inductive PieceState
  | onBelt
  | assigned (b : GateId)
  | riding
deriving DecidableEq, Repr

/-- A piece record (R4, Table 1-6). -/
structure PieceRec where
  number : StripNum
  index : Nat
  lane : Lane
  profile : Nat
  width : Nat
  edition : Edition
  lead : Pos
  segLength : Nat
  finalLength : Nat
  faceClass : Nat
  grade : Grade
  source : PlanSource
  reason : Option Reason
  tongueDone : Bool
  grooveDone : Bool
  state : PieceState
  traced : Bool
deriving DecidableEq, Repr

/-- A record of the belt list, of kind STRIP or PIECE (R8). -/
inductive BeltRec
  | strip (r : StripRec)
  | piece (r : PieceRec)
deriving DecidableEq, Repr

/-- The station mark table, offsets in qmm (R17, Table 1-8). -/
structure Marks where
  deadline : Nat
  trim : Nat
  endmatch : Nat
  sort : Nat
  gates : Vector Nat 11
  runout : Nat
deriving DecidableEq, Repr

/-- The strip track unit. The pool is the records its four lists hold (R1, R6). -/
structure Track where
  queues : PerLane (List StripRec)
  transit : List StripRec
  belt : List BeltRec
  lastNumber : StripNum
  position : Pos
  backlash : Nat
  marks : Marks
deriving DecidableEq, Repr

/-! ## The lane controllers (R30 to R53) -/

/-- The lane states (Table 2-1). -/
inductive LaneState
  | off
  | starting
  | run
  | standby
  | resuming
  | hold
  | drain
  | toolChange
deriving DecidableEq, Repr

/-- What a drain is for (R48). -/
inductive DrainTarget
  | noTarget
  | off
  | recipe
deriving DecidableEq, Repr

/-- A recipe (R49). -/
structure Recipe where
  profile : Nat
  widthNominal : Nat
  thicknessNominal : Nat
  toolSet : Nat
deriving DecidableEq, Repr

/-- The lane limits (Table 2-3). -/
structure LaneLimits where
  capacity : Nat
  startDelay : Nat
  resumeDelay : Nat
  idleTimeout : Nat
  releasePulse : Nat
  outfeedPulse : Nat
deriving DecidableEq, Repr

/-- A lane controller. Each timer holds the millisecond ticks left to its run-out, or nothing when it is
stopped (R32). -/
structure LaneCtl where
  state : LaneState
  target : DrainTarget
  current : Recipe
  pending : Option Recipe
  delay : Option Nat
  idle : Option Nat
  releaseTimer : Option Nat
  outfeedTimer : Option Nat
  limits : LaneLimits
  blankWaiting : Bool
  blankReady : Bool
deriving DecidableEq, Repr

/-! ## The merge arbiter and the entry gauge (R54 to R70) -/

/-- The merge policy (R54). -/
inductive MergePolicy
  | primaryA
  | primaryB
  | alternate
deriving DecidableEq, Repr

/-- The merge arbiter with its limits (R54, Table 3-1). -/
structure Merge where
  policy : MergePolicy
  lastGrant : Pos
  gapOpen : Bool
  lastWinner : Option Lane
  passedOver : PerLane Bool
  mergeGap : Nat
  transitMax : Nat
deriving DecidableEq, Repr

/-- The eye state (R63). -/
inductive EyeState
  | clear
  | covered
  | trailHeld
deriving DecidableEq, Repr

/-- The entry gauge with its limits (R63, Table 3-1). -/
structure Gauge where
  eye : EyeState
  untracked : Bool
  objectStart : Pos
  minStrip : Nat
  maxStrip : Nat
deriving DecidableEq, Repr

/-! ## The grading unit (R71 to R92) -/

/-- The grading mode (R80). -/
inductive GradeMode
  | scanner
  | manual
deriving DecidableEq, Repr

/-- The grading unit with its limits (R71, R80, R87). An edition's entry for profile p and face class f
stands at place 16 p + f. -/
structure Grading where
  map0 : Vector Grade 128
  map1 : Vector Grade 128
  active : Edition
  mode : GradeMode
  segMin : Nat
  widthTol : Nat
  thickTol : Nat
  moistMin : Nat
  moistMax : Nat
deriving DecidableEq, Repr

/-! ## The fire sequencer (R93 to R110) -/

/-- A channel's state, with the microsecond ticks left of its pulse or recovery (R94, R96). -/
inductive ChannelState
  | idle
  | pulsing (left : Nat)
  | recovering (left : Nat)
deriving DecidableEq, Repr

/-- A channel timing in microseconds (R98). -/
structure Timing where
  width : Nat
  recovery : Nat
deriving DecidableEq, Repr

/-- A fire channel (R94, R98). -/
structure Channel where
  state : ChannelState
  current : Timing
  pending : Option Timing
deriving DecidableEq, Repr

/-- The purpose of a fire schedule entry (Table 5-1). -/
inductive Purpose
  | cut
  | tongue
  | groove
  | gate
deriving DecidableEq, Repr

/-- A fire schedule entry (R102). -/
structure FireEntry where
  position : Pos
  channel : ChannelId
  number : StripNum
  index : Nat
  purpose : Purpose
deriving DecidableEq, Repr

/-- The fire sequencer (R93, R102). -/
structure Fire where
  channels : Vector Channel 14
  schedule : List FireEntry
deriving DecidableEq, Repr

/-! ## The cut planner (R111) -/

/-- The cut planner's limits (Table 6-1). -/
structure CutLimits where
  emTrim : Nat
  emMin : Nat
deriving DecidableEq, Repr

/-! ## The order book (R125 to R142) -/

/-- The order states (Table 7-2). -/
inductive OrderState
  | queued
  | active
  | suspended
  | cancelling
  | complete
  | cancelled
deriving DecidableEq, Repr

/-- An order record (R126, Table 7-1). Its put sequence is its place in the book. -/
structure Order where
  id : OrderId
  gradeSet : Byte
  profile : Nat
  bandMin : Nat
  bandMax : Nat
  target : Nat
  longThreshold : Nat
  longShare : Nat
  ordered : Nat
  priority : Nat
  maxBins : Nat
  state : OrderState
  labelled : Nat
  opened : Nat
  bins : List BinId
deriving DecidableEq, Repr

/-! ## The bin controller (R143 to R167) -/

/-- The order bin states (Table 8-2). -/
inductive BinState
  | free
  | opened
  | closing
  | labelWait
  | labelled
  | draining
  | outOfService
deriving DecidableEq, Repr

/-- An entry of an expected-drop list (R151). -/
structure Expected where
  number : StripNum
  index : Nat
  windowEnd : Pos
  short : Bool
deriving DecidableEq, Repr

/-- The part of a bundle's contents that a label repeats (Table 8-1, R161). -/
structure Bundle where
  totalLength : Nat
  totalArea : Nat
  grades : Vector Nat 8
  histogram : Vector Nat 8
  laneA : Nat
  laneB : Nat
  firstStrip : StripNum
  lastStrip : StripNum
deriving DecidableEq, Repr

/-- An order bin record (Table 8-1). The committed count is `OrderBin.committed`. -/
structure OrderBin where
  state : BinState
  order : Option OrderId
  shortCommitted : Nat
  dropped : Nat
  bundle : Bundle
  isPartial : Bool
  expected : List Expected
deriving DecidableEq, Repr

/-- The reject bin, bin 10 (R143). -/
structure RejectBin where
  dropped : Nat
  expected : List Expected
deriving DecidableEq, Repr

/-- A label record (R161). -/
structure Label where
  serial : BitVec 32
  order : OrderId
  bin : BinId
  isPartial : Bool
  profile : Nat
  pieces : Nat
  bundle : Bundle
deriving DecidableEq, Repr

/-- The bin controller with its limits (R143, R146, R160, R165). -/
structure Bins where
  bins : Vector OrderBin 10
  reject : RejectBin
  runoutCount : Nat
  waitList : List BinId
  slots : Vector (Option Label) 2
  compose : Fin 2
  take : Fin 2
  serial : BitVec 32
  dropWindow : Nat
  rejectMax : Nat
  runoutMax : Nat
deriving DecidableEq, Repr

/-! ## The line hold unit (R168 to R177) -/

/-- The hold-cause set (R168). -/
structure Holds where
  guardCause : Bool
  operator : Bool
  phantom : Bool
  stray : Bool
  rejectFull : Bool
  runoutFull : Bool
deriving DecidableEq, Repr

/-! ## The audit unit (R191 to R197) -/

/-- The trace state (R192). -/
inductive TraceState
  | none
  | inProgress
  | held
deriving DecidableEq, Repr

/-- The trace entry kinds, numbered from 1 in this order (Table 10-9). -/
inductive TraceKind
  | released
  | atExit
  | mergeWait
  | granted
  | eyeLead
  | eyeTrail
  | planned
  | cutFired
  | cutMissed
  | tongueFired
  | tongueMissed
  | grooveFired
  | grooveMissed
  | sorted
  | unallocated
  | gateFired
  | gateMissed
  | dropped
  | misdrop
  | runout
  | removed
deriving DecidableEq, Repr

/-- A trace entry (R193). -/
structure TraceEntry where
  kind : TraceKind
  detail : Nat
  index : Nat
  position : Pos
  time : Stamp
deriving DecidableEq, Repr

/-- The fault kinds (Table 11-2). -/
inductive FaultKind
  | fireMissed
  | scheduleFull
  | exitStray
  | phantomEye
  | missing
  | misdrop
  | strayDrop
  | guardTrip
deriving DecidableEq, Repr

/-- A captured fault (R197, Table 10-10). -/
structure FaultRec where
  kind : FaultKind
  number : StripNum
  index : Nat
  subject : Nat
  position : Pos
  time : Stamp
deriving DecidableEq, Repr

/-- The audit unit (R191, R192, R197). -/
structure Audit where
  interval : Nat
  counter : Nat
  trace : TraceState
  strip : StripNum
  lane : Lane
  truncated : Bool
  entries : List TraceEntry
  fault : Option FaultRec
deriving DecidableEq, Repr

/-! ## The station ports (R178 to R190) -/

/-- The roles of a port (R184). -/
inductive Role
  | none
  | supervisor
  | scanner
  | machining
  | dispatch
deriving DecidableEq, Repr

/-- The result codes (Table 10-2). -/
inductive Result
  | ok
  | unknownCommand
  | role
  | length
  | broken
  | state
  | badField
  | badPlan
  | notFound
  | notYet
  | tooLate
  | already
  | busy
  | full
  | duplicate
  | roleTaken
  | editionBusy
  | mode
deriving DecidableEq, Repr

/-- The event kinds (Table 10-3). -/
inductive EventKind
  | stripMeasured
  | verdictLate
  | laneState
  | toolChangeDue
  | fireMissed
  | labelReady
  | orderState
  | binState
  | holdChange
  | fault
  | outOfRange
  | traceDone
  | lineCleared
deriving DecidableEq, Repr

/-- An event record (R185, Table 10-4). -/
structure Event where
  kind : EventKind
  detail : Nat
  time : Stamp
  position : Pos
  number : StripNum
  index : Nat
  subject : Nat
deriving DecidableEq, Repr

/-- What a read hands over, to be released when its last byte has been shifted out (R183, R188, R189).
`flag lost`: the overflow flag of STATUS, and whether an event has been lost since the command byte.
`events discarded`: event records, and whether ROLE_SET has discarded them since. -/
inductive Handover
  | nothing
  | flag (lost : Bool)
  | events (discarded : Bool)
  | label (slot : Fin 2) (serial : BitVec 32)
  | trace
  | fault
deriving DecidableEq, Repr

/-- A read that has been taken: its result, its response as fixed, how many bytes of it have been
shifted out, and what it hands over (R183). -/
structure Answer where
  result : Result
  response : List Byte
  shifted : Nat
  hand : Handover
deriving DecidableEq, Repr

/-- The header of an incremental frame (R182). -/
inductive Header
  | awaited
  | noHeader
  | lane (l : Lane)
  | pointer (i : Fin 128)
  | failed
deriving DecidableEq, Repr

/-- An incremental frame in progress: its header, the bytes of a header or group not yet whole, whether
the header or a group has failed, and for MAP_WRITE what R76 found at the first grade byte. -/
structure Incremental where
  header : Header
  buf : List Byte
  bad : Bool
  busy : Option Bool
deriving DecidableEq, Repr

/-- How far a frame has come after its command byte (R180 to R183). -/
inductive Phase
  | refused (r : Result)
  | whole (buf : List Byte)
  | incremental (i : Incremental)
  | reading (buf : List Byte)
  | answered (a : Answer)
deriving DecidableEq, Repr

/-- A frame in progress: its command byte and how far it has come (R178). -/
structure Frame where
  code : Byte
  phase : Phase
deriving DecidableEq, Repr

/-- A station port (R178, R179, R184, R187). -/
structure Port where
  role : Role
  queue : List Event
  overflow : Bool
  result : Result
  frame : Option Frame
deriving DecidableEq, Repr

/-! ## The whole part -/

/-- The two time bases (00_scope.md 1.6.2): the millisecond count, and the microseconds since its last
tick (the model's own field, log entry 2). -/
structure Time where
  ms : Stamp
  subMs : Nat
deriving DecidableEq, Repr

/-- The state of the D460 and the queue of commands that wait for it. -/
structure State where
  track : Track
  lanes : PerLane LaneCtl
  merge : Merge
  gauge : Gauge
  grading : Grading
  fire : Fire
  cut : CutLimits
  book : List Order
  bnc : Bins
  holds : Holds
  audit : Audit
  ports : Vector Port 4
  /-- The guard input: true while it is open (R94). -/
  guardOpen : Bool
  /-- The BELT_RUN input (R16). -/
  beltRun : Bool
  time : Time
  /-- How many free choices have been made: the model's own field (log entries 4 and 10). -/
  choices : Nat
  /-- The commands that wait, first in, first out. -/
  pending : List Instr
deriving DecidableEq, Repr

/-- The reasons a step can stop with a fault. There is none: the spec gives every command an effect, and
names none after which the part stops. Safe and unsafe do not arise. -/
inductive Fault
deriving DecidableEq, Repr

/-- The reasons a step can be refused. -/
inductive Refusal
  /-- A command that has no meaning in the model yet, raised by exec's arm for it; safe, since nothing
  is claimed of it. No arm raises it now. -/
  | notModelled (mnemonic : String)
deriving DecidableEq, Repr

/-! ## Power-on values -/

/-- Table 1-8. -/
def Marks.powerOn : Marks where
  deadline := 8000
  trim := 12000
  endmatch := 20000
  sort := 28000
  gates := Vector.ofFn fun b : Fin 11 => 30000 + 2400 * b.val
  runout := 58000

/-- R7, R8, R9, R14, R15, R17 (Table 1-10). -/
def Track.powerOn : Track where
  queues := ⟨[], []⟩
  transit := []
  belt := []
  lastNumber := 0
  position := 0
  backlash := 0
  marks := Marks.powerOn

/-- R30, R32, R35, R48, R49, Table 2-3: a lane after power-on, with its BLANK_READY level. -/
def LaneCtl.powerOn (ready : Bool) : LaneCtl where
  state := .off
  target := .noTarget
  current := ⟨0, 0, 0, 0⟩
  pending := none
  delay := none
  idle := none
  releaseTimer := none
  outfeedTimer := none
  limits := ⟨6, 8000, 1500, 200, 20, 20⟩
  blankWaiting := ready
  blankReady := ready

/-- R54, Table 3-1. -/
def Merge.powerOn : Merge where
  policy := .alternate
  lastGrant := 0
  gapOpen := true
  lastWinner := none
  passedOver := ⟨false, false⟩
  mergeGap := 200
  transitMax := 4000

/-- R63, Table 3-1. With the beam clear R63 gives the object start no value, and the model takes 0 (log entry
25). -/
def Gauge.powerOn (beamCut : Bool) : Gauge where
  eye := if beamCut then .covered else .clear
  untracked := beamCut
  objectStart := 0
  minStrip := 1000
  maxStrip := 6400

/-- R71, R80, Table 4-2. -/
def Grading.powerOn : Grading where
  map0 := Vector.replicate 128 .regrade
  map1 := Vector.replicate 128 .regrade
  active := .e0
  mode := .scanner
  segMin := 600
  widthTol := 30
  thickTol := 20
  moistMin := 60
  moistMax := 110

/-- Table 5-2. -/
def Timing.powerOn (c : ChannelId) : Timing :=
  if c.val = 0 then ⟨8000, 30000⟩ else if c.val ≤ 2 then ⟨5000, 12000⟩ else ⟨40000, 20000⟩

/-- R94, R98, R102. -/
def Fire.powerOn : Fire where
  channels := Vector.ofFn fun c => ⟨.idle, Timing.powerOn c, none⟩
  schedule := []

/-- Zero bundle contents (R143). -/
def Bundle.zero : Bundle where
  totalLength := 0
  totalArea := 0
  grades := Vector.replicate 8 0
  histogram := Vector.replicate 8 0
  laneA := 0
  laneB := 0
  firstStrip := 0
  lastStrip := 0

/-- A FREE order bin with no bound order, zero contents and an empty list (R143). -/
def OrderBin.powerOn : OrderBin where
  state := .free
  order := none
  shortCommitted := 0
  dropped := 0
  bundle := Bundle.zero
  isPartial := false
  expected := []

/-- R143, R160, R165, Table 8-3. -/
def Bins.powerOn : Bins where
  bins := Vector.replicate 10 OrderBin.powerOn
  reject := ⟨0, []⟩
  runoutCount := 0
  waitList := []
  slots := Vector.replicate 2 none
  compose := 0
  take := 0
  serial := 1
  dropWindow := 1600
  rejectMax := 300
  runoutMax := 60

/-- R191, R192, R197. -/
def Audit.powerOn : Audit where
  interval := 0
  counter := 0
  trace := .none
  strip := 0
  lane := .a
  truncated := false
  entries := []
  fault := none

/-- R179, R184, R187. -/
def Port.powerOn (p : PortId) : Port where
  role := if p.val = 0 then .supervisor else .none
  queue := []
  overflow := false
  result := .ok
  frame := none

/-- Every block at its power-on state, with the input levels found at power-on (00_scope.md 1.6.6, R168). -/
def State.powerOn (levels : InputLevels) : State where
  track := Track.powerOn
  lanes := ⟨LaneCtl.powerOn levels.blankReadyA, LaneCtl.powerOn levels.blankReadyB⟩
  merge := Merge.powerOn
  gauge := Gauge.powerOn levels.beamCut
  grading := Grading.powerOn
  fire := Fire.powerOn
  cut := ⟨24, 1000⟩
  book := []
  bnc := Bins.powerOn
  holds := ⟨levels.guardOpen, false, false, false, false, false⟩
  audit := Audit.powerOn
  ports := Vector.ofFn Port.powerOn
  guardOpen := levels.guardOpen
  beltRun := levels.beltRun
  time := ⟨0, 0⟩
  choices := 0
  pending := []

/-- The input levels of State.reset: guard closed, no blank, beam clear, belt stopped (log entry 9). -/
def InputLevels.quiet : InputLevels := ⟨false, false, false, false, false⟩

/-- The machine right after reset: power-on with quiet inputs and no command waiting. -/
def State.reset : State := State.powerOn InputLevels.quiet

end Sys2Proof.Machine
end

