-- ==== Sys2Proof/Machine/Operands.lean ====
section
/-! DEFINITION. Operand forms: multi-byte fields, the codes of Tables 10-1 to 10-6, and the parameters of
the commands as they stand in a frame. -/

namespace Sys2Proof

/-! ## Multi-byte fields, most significant byte first (00_scope.md 1.6.4) -/

/-- One byte field. -/
def be8 (n : Nat) : List Byte := [BitVec.ofNat 8 n]

/-- A two-byte field. -/
def be16 (n : Nat) : List Byte := [BitVec.ofNat 8 (n / 256), BitVec.ofNat 8 n]

/-- A three-byte field. -/
def be24 (n : Nat) : List Byte := BitVec.ofNat 8 (n / 65536) :: be16 n

/-- A four-byte field. -/
def be32 (n : Nat) : List Byte := BitVec.ofNat 8 (n / 16777216) :: be24 n

/-- The value of a two-byte field. -/
def word16 (hi lo : Byte) : Nat := 256 * hi.toNat + lo.toNat

/-- The value of a three-byte field. -/
def word24 (hi mid lo : Byte) : Nat := 65536 * hi.toNat + word16 mid lo

/-- A two-byte field that is a strip number or an order id. -/
def num16 (hi lo : Byte) : BitVec 16 := BitVec.ofNat 16 (word16 hi lo)

/-- A three-byte field that is a belt position. -/
def pos24 (hi mid lo : Byte) : Pos := BitVec.ofNat 24 (word24 hi mid lo)

/-! ## The commands (Table 10-1) -/

/-- Whole, incremental or read, with the number of parameter bytes (R181 to R183). -/
inductive CmdKind
  | whole (n : Nat)
  | incremental
  | read (n : Nat)
deriving DecidableEq, Repr

/-- Which ports may issue a command: the column "issued by". -/
inductive IssuedBy
  | any
  | assigned
  | supervisorOnly
  | scannerOnly
  | orMachining
  | orDispatch
deriving DecidableEq, Repr

/-- A row of Table 10-1. -/
structure CmdRow where
  code : Byte
  kind : CmdKind
  issuedBy : IssuedBy
deriving DecidableEq, Repr

/-- Table 10-1. -/
def Cmd.row : Cmd → CmdRow
  | .status => ⟨0x01, .read 0, .any⟩
  | .readEvents => ⟨0x02, .read 1, .any⟩
  | .roleSet => ⟨0x03, .whole 2, .supervisorOnly⟩
  | .limitsSet => ⟨0x04, .incremental, .supervisorOnly⟩
  | .marksSet => ⟨0x05, .whole 48, .supervisorOnly⟩
  | .hold => ⟨0x06, .whole 0, .supervisorOnly⟩
  | .resume => ⟨0x07, .whole 0, .supervisorOnly⟩
  | .lineClear => ⟨0x08, .whole 0, .supervisorOnly⟩
  | .removeStrip => ⟨0x09, .whole 2, .supervisorOnly⟩
  | .removeSpan => ⟨0x0A, .whole 6, .supervisorOnly⟩
  | .removeLane => ⟨0x0B, .whole 1, .orMachining⟩
  | .rejectCleared => ⟨0x0C, .whole 0, .supervisorOnly⟩
  | .runoutCleared => ⟨0x0D, .whole 0, .supervisorOnly⟩
  | .binService => ⟨0x0E, .whole 2, .supervisorOnly⟩
  | .laneStart => ⟨0x10, .whole 1, .orMachining⟩
  | .laneStop => ⟨0x11, .whole 1, .orMachining⟩
  | .laneHold => ⟨0x12, .whole 1, .orMachining⟩
  | .laneRun => ⟨0x13, .whole 1, .orMachining⟩
  | .laneRecipe => ⟨0x14, .whole 7, .orMachining⟩
  | .toolReady => ⟨0x15, .whole 1, .orMachining⟩
  | .laneConfig => ⟨0x16, .incremental, .orMachining⟩
  | .channelSet => ⟨0x17, .incremental, .supervisorOnly⟩
  | .mapWrite => ⟨0x20, .incremental, .supervisorOnly⟩
  | .mapCommit => ⟨0x21, .whole 0, .supervisorOnly⟩
  | .gradeMode => ⟨0x22, .whole 1, .supervisorOnly⟩
  | .verdict => ⟨0x23, .whole 30, .scannerOnly⟩
  | .gradeEntry => ⟨0x24, .whole 30, .supervisorOnly⟩
  | .orderPut => ⟨0x30, .whole 17, .orDispatch⟩
  | .orderSuspend => ⟨0x31, .whole 2, .orDispatch⟩
  | .orderResume => ⟨0x32, .whole 2, .orDispatch⟩
  | .orderAdd => ⟨0x33, .whole 4, .orDispatch⟩
  | .orderCancel => ⟨0x34, .whole 2, .orDispatch⟩
  | .orderRetire => ⟨0x35, .whole 2, .orDispatch⟩
  | .takeLabel => ⟨0x36, .read 0, .orDispatch⟩
  | .binCleared => ⟨0x37, .whole 1, .orDispatch⟩
  | .sampleSet => ⟨0x40, .whole 2, .supervisorOnly⟩
  | .traceRead => ⟨0x41, .read 0, .supervisorOnly⟩
  | .faultRead => ⟨0x42, .read 0, .supervisorOnly⟩
  | .stripRead => ⟨0x50, .read 2, .assigned⟩
  | .laneRead => ⟨0x51, .read 1, .assigned⟩
  | .mapRead => ⟨0x52, .read 4, .assigned⟩
  | .channelRead => ⟨0x53, .read 0, .assigned⟩
  | .orderRead => ⟨0x54, .read 2, .assigned⟩
  | .binRead => ⟨0x55, .read 1, .assigned⟩

/-- Every command of Table 10-1. -/
def Cmd.all : List Cmd :=
  [.status, .readEvents, .roleSet, .limitsSet, .marksSet, .hold, .resume, .lineClear, .removeStrip,
   .removeSpan, .removeLane, .rejectCleared, .runoutCleared, .binService, .laneStart, .laneStop,
   .laneHold, .laneRun, .laneRecipe, .toolReady, .laneConfig, .channelSet, .mapWrite, .mapCommit,
   .gradeMode, .verdict, .gradeEntry, .orderPut, .orderSuspend, .orderResume, .orderAdd, .orderCancel,
   .orderRetire, .takeLabel, .binCleared, .sampleSet, .traceRead, .faultRead, .stripRead, .laneRead,
   .mapRead, .channelRead, .orderRead, .binRead]

/-- The command byte (Table 10-1). -/
def Cmd.code (c : Cmd) : Byte := c.row.code

/-- Whether a code is listed in Table 10-1 (R180). -/
def listedCode (code : Byte) : Bool := Cmd.all.any fun c => c.code == code

namespace Machine

/-- R184: whether a port that holds a role may issue a command. -/
def Role.mayIssue (r : Role) (c : Cmd) : Bool :=
  match c.row.issuedBy with
  | .any => true
  | .assigned => r != .none
  | .supervisorOnly => r == .supervisor
  | .scannerOnly => r == .scanner
  | .orMachining => r == .supervisor || r == .machining
  | .orDispatch => r == .supervisor || r == .dispatch

/-! ## Codes (Tables 10-3, 10-5, 10-9, 10-10) -/

/-- Table 10-5, role. -/
def Role.code : Role → Nat
  | .none => 0
  | .supervisor => 1
  | .scanner => 2
  | .machining => 3
  | .dispatch => 4

/-- The role a byte names (R184). -/
def Role.ofCode (b : Byte) : Option Role :=
  [Role.none, .supervisor, .scanner, .machining, .dispatch][b.toNat]?

/-- Table 10-5, lane. -/
def laneCode : Lane → Nat
  | .a => 0
  | .b => 1

/-- The lane a byte names, if it names one (R33). -/
def laneOfCode (b : Byte) : Option Lane := [Lane.a, .b][b.toNat]?

/-- The other lane. -/
def otherLane : Lane → Lane
  | .a => .b
  | .b => .a

/-- The number of an edition (R71). -/
def Edition.code : Edition → Nat
  | .e0 => 0
  | .e1 => 1

/-- The other edition (R71). -/
def Edition.other : Edition → Edition
  | .e0 => .e1
  | .e1 => .e0

/-- The edition a byte names (R79). -/
def Edition.ofCode (b : Byte) : Option Edition := [Edition.e0, .e1][b.toNat]?

/-- Table 10-5, grade. -/
def Grade.code : Grade → Nat
  | .commercial g => g.val
  | .reject => 8
  | .regrade => 9

/-- The grade a byte names, if it names one (R75). -/
def Grade.ofCode (b : Byte) : Option Grade :=
  if h : b.toNat < 8 then some (.commercial ⟨b.toNat, h⟩)
  else if b.toNat = 8 then some .reject
  else if b.toNat = 9 then some .regrade
  else none

/-- Table 10-5, lane state: in the order of Table 2-1. -/
def LaneState.code : LaneState → Nat
  | .off => 0
  | .starting => 1
  | .run => 2
  | .standby => 3
  | .resuming => 4
  | .hold => 5
  | .drain => 6
  | .toolChange => 7

/-- Table 10-5, drain target. -/
def DrainTarget.code : DrainTarget → Nat
  | .noTarget => 0
  | .off => 1
  | .recipe => 2

/-- Table 10-5, strip state. -/
def StripState.code : StripState → Nat
  | .inMoulder => 0
  | .atExit => 1
  | .transit => 2
  | .measuring => 3
  | .awaitGrade => 4
  | .planned => 5

/-- Table 10-5, piece state. -/
def PieceState.code : PieceState → Nat
  | .onBelt => 0
  | .assigned _ => 1
  | .riding => 2

/-- The bin of a piece, present exactly while it is ASSIGNED (Table 1-6). -/
def PieceState.bin : PieceState → Option GateId
  | .onBelt => none
  | .assigned b => some b
  | .riding => none

/-- Table 10-5, order state: in the order of Table 7-2. -/
def OrderState.code : OrderState → Nat
  | .queued => 0
  | .active => 1
  | .suspended => 2
  | .cancelling => 3
  | .complete => 4
  | .cancelled => 5

/-- Table 10-5, bin state: in the order of Table 8-2. -/
def BinState.code : BinState → Nat
  | .free => 0
  | .opened => 1
  | .closing => 2
  | .labelWait => 3
  | .labelled => 4
  | .draining => 5
  | .outOfService => 6

/-- Table 10-5, plan source. -/
def PlanSource.code : PlanSource → Nat
  | .scanner => 0
  | .manual => 1
  | .default => 2

/-- Table 10-5, reason: 1 to 10 in the order of Table 1-6. -/
def Reason.code : Reason → Nat
  | .width => 1
  | .thickness => 2
  | .length => 3
  | .moisture => 4
  | .defaulted => 5
  | .trimFault => 6
  | .endFault => 7
  | .short => 8
  | .rejectGrade => 9
  | .regradeGrade => 10

/-- Table 10-5, reason, 0 when absent. -/
def reasonCode : Option Reason → Nat
  | none => 0
  | some r => r.code

/-- Table 10-5, fault kind. -/
def FaultKind.code : FaultKind → Nat
  | .fireMissed => 1
  | .scheduleFull => 2
  | .exitStray => 3
  | .phantomEye => 4
  | .missing => 5
  | .misdrop => 6
  | .strayDrop => 7
  | .guardTrip => 8

/-- Table 10-3, event kind. -/
def EventKind.code : EventKind → Nat
  | .stripMeasured => 1
  | .verdictLate => 2
  | .laneState => 3
  | .toolChangeDue => 4
  | .fireMissed => 5
  | .labelReady => 6
  | .orderState => 7
  | .binState => 8
  | .holdChange => 9
  | .fault => 10
  | .outOfRange => 11
  | .traceDone => 12
  | .lineCleared => 13

/-- Table 10-3, destination. VERDICT_LATE is raised to the supervisor as well (R89). -/
def EventKind.destination : EventKind → Role
  | .stripMeasured => .scanner
  | .verdictLate => .scanner
  | .laneState => .machining
  | .toolChangeDue => .machining
  | .fireMissed => .machining
  | .labelReady => .dispatch
  | .orderState => .dispatch
  | .binState => .dispatch
  | .holdChange => .supervisor
  | .fault => .supervisor
  | .outOfRange => .supervisor
  | .traceDone => .supervisor
  | .lineCleared => .supervisor

/-- Table 10-9: trace entry kinds are numbered from 1. -/
def TraceKind.code : TraceKind → Nat
  | .released => 1
  | .atExit => 2
  | .mergeWait => 3
  | .granted => 4
  | .eyeLead => 5
  | .eyeTrail => 6
  | .planned => 7
  | .cutFired => 8
  | .cutMissed => 9
  | .tongueFired => 10
  | .tongueMissed => 11
  | .grooveFired => 12
  | .grooveMissed => 13
  | .sorted => 14
  | .unallocated => 15
  | .gateFired => 16
  | .gateMissed => 17
  | .dropped => 18
  | .misdrop => 19
  | .runout => 20
  | .removed => 21

/-- Table 10-2. -/
def Result.code : Result → Nat
  | .ok => 0
  | .unknownCommand => 1
  | .role => 2
  | .length => 3
  | .broken => 4
  | .state => 5
  | .badField => 6
  | .badPlan => 7
  | .notFound => 8
  | .notYet => 9
  | .tooLate => 10
  | .already => 11
  | .busy => 12
  | .full => 13
  | .duplicate => 14
  | .roleTaken => 15
  | .editionBusy => 16
  | .mode => 17

/-- Table 10-12: a channel's state in bits 0 and 1. -/
def ChannelState.code : ChannelState → Nat
  | .idle => 0
  | .pulsing _ => 1
  | .recovering _ => 2

/-- Table 10-3, FIRE_MISSED: the purpose in bits 0 and 1. -/
def Purpose.code : Purpose → Nat
  | .cut => 0
  | .tongue => 1
  | .groove => 2
  | .gate => 3

/-- GRADE_MODE's mode byte (Table 10-1). -/
def GradeMode.code : GradeMode → Nat
  | .scanner => 0
  | .manual => 1

/-- The mode a byte names (R80). -/
def GradeMode.ofCode (b : Byte) : Option GradeMode := [GradeMode.scanner, .manual][b.toNat]?

/-- The policy a LIMITS_SET value names (Table 3-1). -/
def MergePolicy.ofCode (v : Nat) : Option MergePolicy := [MergePolicy.primaryA, .primaryB, .alternate][v]?

/-- The order bin a number names (R145, R163). -/
def binOfCode (b : Byte) : Option BinId := if h : b.toNat < 10 then some ⟨b.toNat, h⟩ else none

/-- The gated bin of an order bin. -/
def gateOfBin (b : BinId) : GateId := ⟨b.val, by omega⟩

/-- The order bin of a gated bin; the reject bin 10 is none (R143). -/
def binOfGate (b : GateId) : Option BinId := if h : b.val < 10 then some ⟨b.val, h⟩ else none

/-- The channel GATEb: channel code b + 3 (R93). -/
def gateChannel (b : GateId) : ChannelId := ⟨b.val + 3, by omega⟩

/-- The TRIM channel (Table 5-1). -/
def trimChannel : ChannelId := 0

/-- The TONGUE channel (Table 5-1). -/
def tongueChannel : ChannelId := 1

/-- The GROOVE channel (Table 5-1). -/
def grooveChannel : ChannelId := 2

/-! ## Parameters of the grading and order commands -/

/-- The parameters of VERDICT and GRADE_ENTRY (R81, Table 10-7): the strip number, the measurements
present, the segment count and the four segment places. -/
structure Grading.Command where
  number : StripNum
  width : Option Nat
  thickness : Option Nat
  moisture : Option Nat
  count : Nat
  places : List Segment
deriving DecidableEq, Repr

/-- A segment place: start, end, face class (Table 10-7). -/
def segmentOfBytes (s1 s0 e1 e0 f : Byte) : Segment := ⟨word16 s1 s0, word16 e1 e0, f.toNat⟩

/-- The segment places in a run of bytes, five bytes each. -/
def segmentPlaces : List Byte → List Segment
  | s1 :: s0 :: e1 :: e0 :: f :: rest => segmentOfBytes s1 s0 e1 e0 f :: segmentPlaces rest
  | _ => []

/-- A measurement, absent when its presence flag is clear (R81). -/
def measurement (present : Bool) (hi lo : Byte) : Option Nat := if present then some (word16 hi lo) else none

/-- Table 10-7: the parameters of a grading command. -/
def gradingCommand : List Byte → Option Grading.Command
  | n1 :: n0 :: fl :: w1 :: w0 :: t1 :: t0 :: m1 :: m0 :: c :: places =>
    some ⟨num16 n1 n0, measurement (fl.getLsbD 0) w1 w0, measurement (fl.getLsbD 1) t1 t0,
      measurement (fl.getLsbD 2) m1 m0, c.toNat, segmentPlaces places⟩
  | _ => none

/-- The order an ORDER_PUT frame carries (R130, Table 10-1): QUEUED, with both counters at 0 and no bound
bins. -/
def orderOfBytes : List Byte → Option Order
  | [i1, i0, g, pr, a1, a0, z1, z0, t1, t0, l1, l0, sh, b1, b0, pri, mb] =>
    some ⟨num16 i1 i0, g, pr.toNat, word16 a1 a0, word16 z1 z0, word16 t1 t0, word16 l1 l0, sh.toNat,
      word16 b1 b0, pri.toNat, mb.toNat, .queued, 0, 0, []⟩
  | _ => none

/-- The offsets of a MARKS_SET frame, three bytes each (R18). -/
def offsetsOfBytes : List Byte → List Nat
  | b2 :: b1 :: b0 :: rest => word24 b2 b1 b0 :: offsetsOfBytes rest
  | _ => []

/-- The mark table of sixteen offsets in the order of Table 1-8 (R18). -/
def marksOfOffsets : List Nat → Option Marks
  | [d, t, e, s, g0, g1, g2, g3, g4, g5, g6, g7, g8, g9, g10, r] =>
    some ⟨d, t, e, s, #v[g0, g1, g2, g3, g4, g5, g6, g7, g8, g9, g10], r⟩
  | _ => none

end Machine

end Sys2Proof
end

