-- ==== Sys2Proof/Machine/Flags.lean ====
section
/-! DEFINITION. Flag bytes: a field marked "flags" holds one bit for each item, bit 0 first (10.8). -/

namespace Sys2Proof.Machine

/-- A flags field: bit 0 is the first item; unused bits are 0. -/
def flagBits : List Bool → Nat
  | [] => 0
  | b :: bs => b.toNat + 2 * flagBits bs

/-- A flag in a byte of its own: 1 when set (log entry 15). -/
def flagByte (b : Bool) : List Byte := be8 b.toNat

/-- The hold-cause flags (Table 10-5): GUARD bit 0 to RUNOUT_FULL bit 5. -/
def Holds.flags (h : Holds) : Nat :=
  flagBits [h.guardCause, h.operator, h.phantom, h.stray, h.rejectFull, h.runoutFull]

/-- The causes in which two sets differ, one flag for each (R169). -/
def Holds.changed (h k : Holds) : Nat :=
  flagBits [h.guardCause != k.guardCause, h.operator != k.operator, h.phantom != k.phantom,
    h.stray != k.stray, h.rejectFull != k.rejectFull, h.runoutFull != k.runoutFull]

/-- Whether no cause is set (R170). -/
def Holds.isEmpty (h : Holds) : Bool :=
  !(h.guardCause || h.operator || h.phantom || h.stray || h.rejectFull || h.runoutFull)

/-- Grade set flags: bit g for Gg (Table 10-5). Only G0 to G7 can be in a set (R126). -/
def inGradeSet (set : Byte) : Grade → Bool
  | .commercial g => set.getLsbD g.val
  | .reject => false
  | .regrade => false

/-- STRIP_MEASURED's detail code: bit 7 lane, bits 0 to 2 profile (Table 10-3). -/
def measuredDetail (l : Lane) (profile : Nat) : Nat := 128 * laneCode l + profile % 8

/-- FIRE_MISSED's detail code: bits 0 and 1 purpose, bit 7 cause GUARD (Table 10-3). -/
def missedDetail (p : Purpose) (guardCause : Bool) : Nat := 128 * guardCause.toNat + p.code

/-- TRACE_DONE's detail code: the entry count in bits 0 to 5, TRUNCATED in bit 7 (R194). -/
def traceDoneDetail (count : Nat) (truncated : Bool) : Nat := 128 * truncated.toNat + count % 64

/-- A strip record's flags in STRIP_READ (Table 10-12). -/
def stripFlags (r : StripRec) : Nat :=
  flagBits [r.grantPos.isSome, r.lead.isSome, r.length.isSome, r.width.isSome, r.thickness.isSome,
    r.moisture.isSome, r.outOfRange, r.traced]

/-- A piece record's flags in STRIP_READ (Table 10-12). -/
def pieceFlags (r : PieceRec) : Nat := flagBits [r.tongueDone, r.grooveDone, r.traced]

end Sys2Proof.Machine
end

