-- ==== Sys2Proof/Machine/Ops.lean ====
section
/-! DEFINITION. The named operations every block uses: access to lanes, queues, ports, bins, channels and
records; the counts the strip track keeps; positions; raising events; trace entries and fault capture. -/

namespace Sys2Proof.Machine

/-! ## Access by lane, port, bin and channel -/

/-- The thing of one lane. -/
def PerLane.get {α : Type} (x : PerLane α) : Lane → α
  | .a => x.a
  | .b => x.b

/-- Replace the thing of one lane. -/
def PerLane.set {α : Type} (x : PerLane α) : Lane → α → PerLane α
  | .a, v => { x with a := v }
  | .b, v => { x with b := v }

/-- A lane's controller. -/
def State.lane (s : State) (l : Lane) : LaneCtl := s.lanes.get l

/-- Change a lane's controller. -/
def State.modLane (s : State) (l : Lane) (f : LaneCtl → LaneCtl) : State :=
  { s with lanes := s.lanes.set l (f (s.lanes.get l)) }

/-- A lane's queue (R7). -/
def State.queue (s : State) (l : Lane) : List StripRec := s.track.queues.get l

/-- Replace a lane's queue. -/
def State.setQueue (s : State) (l : Lane) (q : List StripRec) : State :=
  { s with track.queues := s.track.queues.set l q }

/-- A lane's passed-over flag (R54). -/
def State.passedOver (s : State) (l : Lane) : Bool := s.merge.passedOver.get l

/-- Set or clear a lane's passed-over flag. -/
def State.setPassedOver (s : State) (l : Lane) (v : Bool) : State :=
  { s with merge.passedOver := s.merge.passedOver.set l v }

/-- A station port. -/
def State.port (s : State) (p : PortId) : Port := s.ports[p]

/-- Change a station port. -/
def State.modPort (s : State) (p : PortId) (f : Port → Port) : State :=
  { s with ports := s.ports.set p.val (f s.ports[p]) p.isLt }

/-- An order bin. -/
def State.bin (s : State) (b : BinId) : OrderBin := s.bnc.bins[b]

/-- Change an order bin. -/
def State.modBin (s : State) (b : BinId) (f : OrderBin → OrderBin) : State :=
  { s with bnc.bins := s.bnc.bins.set b.val (f s.bnc.bins[b]) b.isLt }

/-- A fire channel. -/
def State.channel (s : State) (c : ChannelId) : Channel := s.fire.channels[c]

/-- Change a fire channel. -/
def State.modChannel (s : State) (c : ChannelId) (f : Channel → Channel) : State :=
  { s with fire.channels := s.fire.channels.set c.val (f s.fire.channels[c]) c.isLt }

/-- The order of an id, if the book holds one (R125). -/
def State.order (s : State) (i : OrderId) : Option Order := s.book.find? fun o => o.id == i

/-- Change the order of an id. -/
def State.modOrder (s : State) (i : OrderId) (f : Order → Order) : State :=
  { s with book := s.book.map fun o => if o.id = i then f o else o }

/-! ## Belt positions (00_scope.md 1.6.1) -/

/-- A position plus an offset in qmm, modulo 2^24. -/
def beyond (p : Pos) (offset : Nat) : Pos := p + BitVec.ofNat 24 offset

/-- A position has been reached when the belt position minus it, modulo 2^24, is less than 2^23. -/
def State.reached (s : State) (p : Pos) : Bool := (s.track.position - p).toNat < 8388608

/-! ## Records (R1 to R10) -/

/-- The strip a belt-list record is, if it is of kind STRIP. -/
def BeltRec.strip? : BeltRec → Option StripRec
  | .strip r => some r
  | .piece _ => none

/-- The piece a belt-list record is, if it is of kind PIECE. -/
def BeltRec.piece? : BeltRec → Option PieceRec
  | .strip _ => none
  | .piece r => some r

/-- The lead position of a belt-list record. -/
def BeltRec.lead : BeltRec → Option Pos
  | .strip r => r.lead
  | .piece r => some r.lead

/-- The strip number a belt-list record carries. -/
def BeltRec.number : BeltRec → StripNum
  | .strip r => r.number
  | .piece r => r.number

/-- The strip records in the belt list. -/
def State.beltStrips (s : State) : List StripRec := s.track.belt.filterMap BeltRec.strip?

/-- The piece records in the track. -/
def State.pieces (s : State) : List PieceRec := s.track.belt.filterMap BeltRec.piece?

/-- Every strip record in the track: the uncut strips (R10). -/
def State.strips (s : State) : List StripRec :=
  s.track.queues.a ++ s.track.queues.b ++ s.track.transit ++ s.beltStrips

/-- The number of allocated records: the sum of the four list lengths (R6). -/
def State.allocated (s : State) : Nat :=
  s.track.queues.a.length + s.track.queues.b.length + s.track.transit.length + s.track.belt.length

/-- The number of free records of the pool of 128 (R1, R10). -/
def State.freeRecords (s : State) : Nat := 128 - s.allocated

/-- The number of uncut strips (R10). -/
def State.uncutStrips (s : State) : Nat := s.strips.length

/-- The reference count of an edition (R72). -/
def State.referenceCount (s : State) (e : Edition) : Nat :=
  (s.strips.countP fun r => r.edition == e) + (s.pieces.countP fun r => r.edition == e)

/-- The traced count: the records in the track whose traced flag is set (R192). -/
def State.tracedCount (s : State) : Nat :=
  (s.strips.countP fun r => r.traced) + (s.pieces.countP fun r => r.traced)

/-- Whether some record in the track carries a strip number (R9). -/
def State.carried (s : State) (n : StripNum) : Bool :=
  (s.strips.any fun r => r.number == n) || (s.pieces.any fun r => r.number == n)

/-- R9: the first number after n that is not 0 and that `used` does not hold of, in at most `fuel` tries. -/
def nextNumber (used : StripNum → Bool) : Nat → StripNum → StripNum
  | 0, n => n
  | fuel + 1, n => if n + 1 = 0 || used (n + 1) then nextNumber used fuel (n + 1) else n + 1

/-- The strip record of a number in the belt list. -/
def State.beltStrip (s : State) (n : StripNum) : Option StripRec := s.beltStrips.find? fun r => r.number == n

/-- The strip record of a number, wherever it stands. -/
def State.strip (s : State) (n : StripNum) : Option StripRec := s.strips.find? fun r => r.number == n

/-- The piece record of a number and index. -/
def State.piece (s : State) (n : StripNum) (k : Nat) : Option PieceRec :=
  s.pieces.find? fun r => r.number == n && r.index == k

/-- Change the strip record of a number in the belt list. -/
def State.modBeltStrip (s : State) (n : StripNum) (f : StripRec → StripRec) : State :=
  { s with track.belt := s.track.belt.map fun
      | .strip r => if r.number = n then .strip (f r) else .strip r
      | .piece r => .piece r }

/-- Change the piece records that a test holds of. -/
def State.modPieces (s : State) (test : PieceRec → Bool) (f : PieceRec → PieceRec) : State :=
  { s with track.belt := s.track.belt.map fun
      | .strip r => .strip r
      | .piece r => if test r then .piece (f r) else .piece r }

/-- Change the piece record of a number and index. -/
def State.modPiece (s : State) (n : StripNum) (k : Nat) (f : PieceRec → PieceRec) : State :=
  s.modPieces (fun r => r.number == n && r.index == k) f

/-! ## Events (R185 to R187) -/

/-- R186: the port that holds a role; port 0 when none does. -/
def State.roleHolder (s : State) (r : Role) : PortId :=
  if (s.port 0).role = r then 0 else if (s.port 1).role = r then 1 else if (s.port 2).role = r then 2
  else if (s.port 3).role = r then 3 else 0

/-- R189: a STATUS response in progress notes that an event has been lost since its command byte. -/
def Frame.noteLoss (f : Frame) : Frame :=
  match f.phase with
  | .answered a =>
    match a.hand with
    | .flag _ => { f with phase := .answered { a with hand := .flag true } }
    | _ => f
  | _ => f

/-- R187: an event joins the tail of the queue, or is lost and sets the overflow flag when the queue holds
32 records. -/
def Port.enqueue (q : Port) (e : Event) : Port :=
  if q.queue.length < 32 then { q with queue := q.queue ++ [e] }
  else { q with overflow := true, frame := q.frame.map Frame.noteLoss }

/-- Raise an event at a given port, stamped with the millisecond count and the belt position (R185). -/
def State.raiseAt (s : State) (p : PortId) (kind : EventKind) (detail : Nat) (n : StripNum) (k subject : Nat) :
    State :=
  s.modPort p fun q => q.enqueue ⟨kind, detail, s.time.ms, s.track.position, n, k, subject⟩

/-- R185, R186: raise an event, queued at the port that holds its kind's destination role. -/
def State.raise (s : State) (kind : EventKind) (detail : Nat) (n : StripNum) (k subject : Nat) : State :=
  s.raiseAt (s.roleHolder kind.destination) kind detail n k subject

/-! ## The trace log and the fault record (R193, R197) -/

/-- R193: an entry joins the log while a trace is IN_PROGRESS and the log holds fewer than 48; a full log
sets TRUNCATED. -/
def Audit.offerEntry (a : Audit) (e : TraceEntry) : Audit :=
  match a.trace with
  | .inProgress =>
    if a.entries.length < 48 then { a with entries := a.entries ++ [e] } else { a with truncated := true }
  | .none => a
  | .held => a

/-- Offer a trace entry, with the belt position and time stamp of its event, when the record handled is
traced. -/
def State.traceEntry (s : State) (traced : Bool) (kind : TraceKind) (detail k : Nat) : State :=
  if traced then
    { s with audit := s.audit.offerEntry ⟨kind, detail, k, s.track.position, s.time.ms⟩ }
  else s

/-- R197: the fault record takes an offered fault when it is empty. -/
def State.offerFault (s : State) (kind : FaultKind) (n : StripNum) (k subject : Nat) : State :=
  match s.audit.fault with
  | none => { s with audit.fault := some ⟨kind, n, k, subject, s.track.position, s.time.ms⟩ }
  | some _ => s

/-- A line fault reported by a FAULT event: captured, then raised to the supervisor (R43, R61, R66, R119,
R150, R154, R156, R172). -/
def State.lineFault (s : State) (kind : FaultKind) (n : StripNum) (k subject : Nat) : State :=
  (s.offerFault kind n k subject).raise .fault kind.code n k subject

/-! ## Outputs and views -/

/-- SPINDLE is active in every state except OFF and TOOL_CHANGE (R31). -/
def LaneCtl.spindle (c : LaneCtl) : Bool := c.state != .off && c.state != .toolChange

/-- FEED is active in RUN, HOLD and DRAIN (R31). -/
def LaneCtl.feed (c : LaneCtl) : Bool := c.state == .run || c.state == .hold || c.state == .drain

/-- RELEASE is active while its pulse timer runs (R38). -/
def LaneCtl.releaseOutput (c : LaneCtl) : Bool := c.releaseTimer.isSome

/-- OUTFEED is active while its pulse timer runs (R44). -/
def LaneCtl.outfeedOutput (c : LaneCtl) : Bool := c.outfeedTimer.isSome

/-- A fire output is active while its channel is PULSING and the guard is closed (R94). -/
def State.fireOutput (s : State) (c : ChannelId) : Bool := (s.channel c).state.code == 1 && !s.guardOpen

/-- LINE_HOLD is active while the hold-cause set holds a cause (R170). -/
def State.lineHold (s : State) : Bool := !s.holds.isEmpty

/-- ATTN is asserted exactly while the event queue is non-empty (R187). -/
def Port.attn (q : Port) : Bool := !q.queue.isEmpty

/-- The k-th byte a port shifts out in the frame in progress (R178, R183): the result code during the
command byte, 0 during the parameter bytes, the response as fixed, 0 after it. `params` is the number of
parameter bytes of the command. -/
def Port.outByte (q : Port) (params k : Nat) : Byte :=
  if k = 0 then BitVec.ofNat 8 q.result.code
  else match q.frame with
    | some ⟨_, .answered a⟩ => if k ≤ params then 0 else a.response.getD (k - 1 - params) 0
    | _ => 0

/-- The committed count of an order bin: dropped count plus the length of its list (R151). -/
def OrderBin.committed (b : OrderBin) : Nat := b.dropped + b.expected.length

/-- The committed count of the reject bin (R143, R151). -/
def RejectBin.committed (b : RejectBin) : Nat := b.dropped + b.expected.length

/-- The number of labels held, 0 to 2 (R160). -/
def State.labelsHeld (s : State) : Nat := s.bnc.slots.toList.countP Option.isSome

end Sys2Proof.Machine
end

