-- ==== Sys2Proof/Machine/Schedule.lean ====
section
/-! DEFINITION. The fire schedule and the fire channels: placing, cancelling and answering (R93 to R109). -/

namespace Sys2Proof.Machine

/-! ## The schedule (R102, R103, R107) -/

/-- R102: an entry joins after every entry whose key is the same or less. -/
def insertEntry (key : FireEntry → Nat) (e : FireEntry) : List FireEntry → List FireEntry
  | [] => [e]
  | x :: xs => if key x ≤ key e then x :: insertEntry key e xs else e :: x :: xs

/-- R102: the distance of an entry ahead of the belt. -/
def State.distance (s : State) (e : FireEntry) : Nat := (e.position - s.track.position).toNat

/-- The schedule with a group placed, each entry in its order of position (R103). -/
def State.withGroup (s : State) (group : List FireEntry) : List FireEntry :=
  group.foldl (fun l e => insertEntry s.distance e l) s.fire.schedule

/-- R103: a group is placed whole, or not at all when the schedule lacks the space (SCHEDULE_FULL, none). -/
def State.placeGroup (s : State) (group : List FireEntry) : Option State :=
  if group.length + s.fire.schedule.length ≤ 64 then some { s with fire.schedule := s.withGroup group }
  else none

/-- R107: every entry that a test holds of leaves the schedule with no outcome. -/
def State.cancelEntries (s : State) (test : FireEntry → Bool) : State :=
  { s with fire.schedule := s.fire.schedule.filter fun e => !test e }

/-- Whether an entry names the record of a strip number and piece index. -/
def FireEntry.names (e : FireEntry) (n : StripNum) (k : Nat) : Bool := e.number == n && e.index == k

/-- Whether an entry is an end-match stroke. -/
def FireEntry.endMatch (e : FireEntry) : Bool := e.purpose == .tongue || e.purpose == .groove

/-! ## The channels (R94 to R100) -/

/-- R96, R98: entry into IDLE, at which a pending timing becomes current. -/
def Channel.toIdle (c : Channel) : Channel := ⟨.idle, c.pending.getD c.current, none⟩

/-- R96, R100: the end of a pulse, into RECOVERING with the current recovery, or into IDLE when it is 0. -/
def Channel.endPulse (c : Channel) : Channel :=
  if c.current.recovery = 0 then c.toIdle else { c with state := .recovering c.current.recovery }

/-- R100: the guard's opening cuts a pulse short. -/
def Channel.cutShort (c : Channel) : Channel :=
  match c.state with
  | .pulsing _ => c.endPulse
  | .idle => c
  | .recovering _ => c

/-- Whether a channel is PULSING. -/
def Channel.isPulsing (c : Channel) : Bool := c.state.code == 1

/-- The outcome of a fire request; a miss carries its cause, GUARD when true and BUSY when false (R95). -/
inductive FireOutcome
  | fired
  | missed (byGuard : Bool)
deriving DecidableEq, Repr

/-- R95: how a channel answers a fire request. -/
def Channel.answer (c : Channel) (guardOpen : Bool) : FireOutcome :=
  if guardOpen then .missed true else if c.state = .idle then .fired else .missed false

/-- R95: a FIRED request begins a pulse of the current width; a MISSED one leaves the channel as it was. -/
def Channel.request (c : Channel) (guardOpen : Bool) : Channel :=
  match c.answer guardOpen with
  | .fired => { c with state := .pulsing c.current.width }
  | .missed _ => c

/-- R99: a timing group becomes current on an IDLE channel, pending on a busy one. -/
def Channel.setTiming (c : Channel) (t : Timing) : Channel :=
  if c.state = .idle then { c with current := t, pending := none } else { c with pending := some t }

end Sys2Proof.Machine
end

