-- ==== Sys2Proof/Machine/Allocation.lean ====
section
/-! DEFINITION. Order states, bin states, the bin allocation arbiter and unbinding (R127, R138 to R140, R144). -/

namespace Sys2Proof.Machine

/-- R144: a bin enters a state and its BIN_STATE event is raised. -/
def State.enterBin (s : State) (b : BinId) (st : BinState) : State :=
  (s.modBin b fun x => { x with state := st }).raise .binState st.code 0 0 b.val

/-- R127: an order enters a state and its ORDER_STATE event is raised. -/
def State.enterOrder (s : State) (i : OrderId) (st : OrderState) : State :=
  (s.modOrder i fun o => { o with state := st }).raise .orderState st.code 0 0 i.toNat

/-- R138: an order needs a bin. -/
def Order.needsBin (o : Order) : Bool :=
  (o.state == .queued || o.state == .active) && decide (o.bins.length < o.maxBins) &&
    decide (o.labelled + o.opened < o.ordered)

/-- R138: of two orders, the earlier first, the one of higher priority; the earlier when equal. -/
def moreUrgent (first second : Order) : Order := if first.priority < second.priority then second else first

/-- R138: the order of the highest priority, and among those the earliest. -/
def mostUrgent : List Order → Option Order
  | [] => none
  | o :: os => some (os.foldl moreUrgent o)

/-- R138: the order that the arbiter would bind next. -/
def State.nextOrder (s : State) : Option Order := mostUrgent (s.book.filter Order.needsBin)

/-- R138: the lowest-numbered FREE bin. -/
def State.lowestFree (s : State) : Option BinId :=
  (List.finRange 10).find? fun b => (s.bin b).state == .free

/-- R138: a binding, in the order of its four parts. -/
def State.bindBin (s : State) (b : BinId) (o : Order) : State :=
  let opened := (s.modBin b fun _ => { OrderBin.powerOn with order := some o.id }).enterBin b .opened
  let counted := opened.modOrder o.id fun x => { x with bins := x.bins ++ [b], opened := x.opened + 1 }
  if o.state = .queued then counted.enterOrder o.id .active else counted

/-- R138: bind while some order bin is FREE and some order needs one, at most `fuel` times. -/
def State.bindWhile : Nat → State → State
  | 0, s => s
  | fuel + 1, s =>
    match s.lowestFree, s.nextOrder with
    | some b, some o => bindWhile fuel (s.bindBin b o)
    | none, _ => s
    | some _, none => s

/-- R139: a run of the arbiter. Each binding takes a FREE bin, so there are at most ten. -/
def State.runArbiter (s : State) : State := s.bindWhile 10

/-- R140: a bin's number leaves its order's list, and an order whose list is then empty acts on its state. -/
def State.unbind (s : State) (b : BinId) (i : OrderId) : State :=
  let t := s.modOrder i fun o => { o with bins := o.bins.erase b }
  match t.order i with
  | none => t
  | some o =>
    if o.bins ≠ [] then t
    else match o.state with
      | .cancelling => t.enterOrder i .cancelled
      | .active => t.enterOrder i .complete
      | .suspended => t.enterOrder i .complete
      | .queued => t
      | .complete => t
      | .cancelled => t

/-- R159, R163: an order bin is given back: zero contents, unbound and FREE; the unbinding acts on its
order; then the arbiter runs. `wasOpen` is 1 when the order's bundles open falls by one as well, else 0. -/
def State.giveBack (s : State) (b : BinId) (wasOpen : Nat) : State :=
  let freed := (s.modBin b fun _ => OrderBin.powerOn).enterBin b .free
  match (s.bin b).order with
  | none => freed.runArbiter
  | some i => ((freed.modOrder i fun o => { o with opened := o.opened - wasOpen }).unbind b i).runArbiter

/-- The order a bin is bound to, if the book holds it. -/
def State.boundOrder (s : State) (b : BinId) : Option Order := (s.bin b).order.bind s.order

end Sys2Proof.Machine
end

