-- ==== Sys2Proof/Machine/Bundles.lean ====
section
/-! DEFINITION. Labels, settling and lowered commitments: what the bin controller does to a bin after its
expected-drop list has changed (R155, R158 to R161). -/

namespace Sys2Proof.Machine

/-! ## Label composition (R160, R161) -/

/-- R161: the label of a bin at composition. -/
def State.labelOf (s : State) (b : BinId) : Label :=
  { serial := s.bnc.serial
    order := (s.bin b).order.getD 0
    bin := b
    isPartial := (s.bin b).isPartial
    profile := (s.boundOrder b).elim 0 Order.profile
    pieces := (s.bin b).dropped
    bundle := (s.bin b).bundle }

/-- The other label slot. -/
def otherSlot (i : Fin 2) : Fin 2 := 1 - i

/-- R160: a label may be composed: the slot named is free and the counter has not run out. -/
def Bins.mayCompose (c : Bins) : Bool := c.slots[c.compose].isNone && c.serial != 4294967295

/-- R160: the head bin's label is composed, in the order of the five parts. -/
def State.composeLabel (s : State) (b : BinId) (rest : List BinId) : State :=
  let written := { s with
    bnc.slots := s.bnc.slots.set s.bnc.compose.val (some (s.labelOf b)) s.bnc.compose.isLt
    bnc.serial := s.bnc.serial + 1
    bnc.compose := otherSlot s.bnc.compose
    bnc.waitList := rest }
  let labelled := written.enterBin b .labelled
  let counted := match (s.bin b).order with
    | none => labelled
    | some i => labelled.modOrder i fun o => { o with labelled := o.labelled + 1, opened := o.opened - 1 }
  counted.raise .labelReady (s.bin b).isPartial.toNat 0 0 b.val

/-- R160: composition repeats while both conditions hold, at most `fuel` times. -/
def State.composeWhile : Nat → State → State
  | 0, s => s
  | fuel + 1, s =>
    match s.bnc.waitList with
    | [] => s
    | b :: rest => if s.bnc.mayCompose then composeWhile fuel (s.composeLabel b rest) else s

/-- R160: composition. Each label fills one of the two slots, so there are at most two. -/
def State.compose (s : State) : State := s.composeWhile 2

/-- R158, R159: a bin enters LABEL_WAIT with its PARTIAL flag and joins the wait list; composition
proceeds. -/
def State.enterLabelWait (s : State) (b : BinId) (isPartial : Bool) : State :=
  let waiting := (s.modBin b fun x => { x with isPartial := isPartial }).enterBin b .labelWait
  State.compose { waiting with bnc.waitList := waiting.bnc.waitList ++ [b] }

/-! ## Settling, completing and reopening (R155, R158, R159) -/

/-- R159: a DRAINING bin is settled when its expected-drop list is empty. -/
def State.settleBin (s : State) (b : BinId) : State :=
  if (s.bin b).state = .draining ∧ (s.bin b).expected = [] then
    if (s.bin b).dropped = 0 then s.giveBack b 1 else s.enterLabelWait b true
  else s

/-- R135, R155: a bin enters DRAINING and is settled at once when its list is empty. -/
def State.drainBin (s : State) (b : BinId) : State := (s.enterBin b .draining).settleBin b

/-- R158: a CLOSING bin whose list is empty holds its complete bundle. -/
def State.completeBin (s : State) (b : BinId) : State :=
  if (s.bin b).state = .closing ∧ (s.bin b).expected = [] then s.enterLabelWait b false else s

/-- R155: what a lowered commitment does to its order bin. -/
def State.reopenBin (s : State) (b : BinId) : State :=
  match (s.bin b).state with
  | .closing =>
    if (s.boundOrder b).any fun o => o.state == .cancelling then s.drainBin b else s.enterBin b .opened
  | .draining => s.settleBin b
  | .free => s
  | .opened => s
  | .labelWait => s
  | .labelled => s
  | .outOfService => s

/-! ## Expected-drop lists (R151, R155) -/

/-- The expected-drop list of a gated bin. -/
def State.expected (s : State) (b : GateId) : List Expected :=
  match binOfGate b with
  | some i => (s.bin i).expected
  | none => s.bnc.reject.expected

/-- Whether an entry names a piece. -/
def Expected.names (e : Expected) (n : StripNum) (k : Nat) : Bool := e.number == n && e.index == k

/-- The expected-drop entry of a piece in a bin, if there is one. -/
def State.expectedOf (s : State) (b : GateId) (n : StripNum) (k : Nat) : Option Expected :=
  (s.expected b).find? fun e => e.names n k

/-- R155: a piece's entry leaves an order bin's list from its place, and short committed falls by its short
flag. -/
def OrderBin.lower (x : OrderBin) (n : StripNum) (k : Nat) (e : Expected) : OrderBin :=
  { x with
    expected := x.expected.eraseP fun e => e.names n k
    shortCommitted := x.shortCommitted - e.short.toNat }

/-- R155: a piece's commitment to a bin is lowered; nothing happens when it has none. -/
def State.lower (s : State) (b : GateId) (n : StripNum) (k : Nat) : State :=
  match s.expectedOf b n k with
  | none => s
  | some e =>
    match binOfGate b with
    | some i => (s.modBin i fun x => x.lower n k e).reopenBin i
    | none => { s with bnc.reject.expected := s.bnc.reject.expected.eraseP fun e => e.names n k }

end Sys2Proof.Machine
end

