-- ==== Sys2Proof/Machine/Blanks.lean ====
section
/-! DEFINITION. What happens inside a lane: lane states, releases, the idle timer, drains (R11, R30, R34,
R36 to R41, R48, R191, R192). -/

namespace Sys2Proof.Machine

/-! ## Releases (R11, R36, R191, R192) -/

/-- R36: the four conditions a lane tests itself. -/
def State.wantsRelease (s : State) (l : Lane) : Bool :=
  (s.lane l).state == .run && (s.lane l).blankWaiting &&
    decide ((s.queue l).length < (s.lane l).limits.capacity) && (s.lane l).releaseTimer.isNone

/-- R11: the admission reserve holds: free records minus three times uncut strips is at least 4. -/
def State.reserveHolds (s : State) : Bool := decide (3 * s.uncutStrips + 4 ≤ s.freeRecords)

/-- R11, R36: every condition of a release. -/
def State.canRelease (s : State) (l : Lane) : Bool := s.wantsRelease l && s.reserveHolds

/-- R191: whether the next release is a sample. -/
def Audit.nextIsSample (a : Audit) : Bool := a.interval != 0 && decide (a.interval ≤ a.counter + 1)

/-- R191: a release counted on the sample counter. -/
def Audit.countRelease (a : Audit) : Audit :=
  if a.interval = 0 then a else { a with counter := if a.nextIsSample then 0 else a.counter + 1 }

/-- R192: a sample finds no trace, and its strip becomes traced. -/
def Audit.startsTrace (a : Audit) : Bool := a.nextIsSample && a.trace == .none

/-- R192: the log header takes the strip and the lane. -/
def Audit.beginTrace (a : Audit) (n : StripNum) (l : Lane) : Audit :=
  { a with trace := .inProgress, strip := n, lane := l, truncated := false, entries := [] }

/-- R191, R192: the audit unit at the release of a strip. -/
def Audit.atRelease (a : Audit) (n : StripNum) (l : Lane) : Audit :=
  if a.startsTrace then a.countRelease.beginTrace n l else a.countRelease

/-- R9: the strip number of the next release. -/
def State.newNumber (s : State) : StripNum := nextNumber s.carried 65536 s.track.lastNumber

/-- R2, R11: the record of a blank released now. -/
def State.newStrip (s : State) (l : Lane) : StripRec where
  number := s.newNumber
  lane := l
  profile := (s.lane l).current.profile
  widthNominal := (s.lane l).current.widthNominal
  thicknessNominal := (s.lane l).current.thicknessNominal
  edition := s.grading.active
  state := .inMoulder
  grantPos := none
  lead := none
  length := none
  outOfRange := false
  width := none
  thickness := none
  moisture := none
  plan := none
  traced := s.audit.startsTrace

/-- R36, R38, R39: the flag is cleared, the RELEASE pulse starts, and the lane is no longer idle. -/
def LaneCtl.atRelease (c : LaneCtl) : LaneCtl :=
  { c with blankWaiting := false, releaseTimer := some c.limits.releasePulse, idle := none }

/-- R36: a release. -/
def State.release (s : State) (l : Lane) : State :=
  let recorded := { s with track.lastNumber := s.newNumber, audit := s.audit.atRelease s.newNumber l }
  let queued := recorded.setQueue l (s.queue l ++ [s.newStrip l])
  (queued.modLane l LaneCtl.atRelease).traceEntry s.audit.startsTrace .released 0 0

/-- R37: a lane tests its release conditions. -/
def State.testRelease (s : State) (l : Lane) : State := if s.canRelease l then s.release l else s

/-- R12, R37: the free and uncut counts have changed, and each lane tests its release conditions. When both
can be served, either may come first: a free choice (log entry 10; log entry 24 for the lanes' own events). -/
def State.retest (s : State) : State :=
  if s.canRelease .a && s.canRelease .b then
    let first := if Config.laneAFirst s.choices then Lane.a else Lane.b
    ({ s with choices := s.choices + 1 }.testRelease first).testRelease (otherLane first)
  else (s.testRelease .a).testRelease .b

/-! ## Lane states (R30, R32, R34, R39, R40) -/

/-- R30, R32: a lane enters a state and raises LANE_STATE; its delay and idle timers are discarded. -/
def State.enterLane (s : State) (l : Lane) (st : LaneState) : State :=
  (s.modLane l fun c => { c with state := st, delay := none, idle := none }).raise .laneState st.code 0 0
    (laneCode l)

/-- R39: the idle timer's three conditions, with the idle timeout not 0. -/
def State.isIdle (s : State) (l : Lane) : Bool :=
  (s.lane l).state == .run && !(s.lane l).blankReady && (s.queue l).isEmpty &&
    (s.lane l).limits.idleTimeout != 0

/-- R39: the idle timer starts from zero when its conditions have come to hold. -/
def State.startIdle (s : State) (l : Lane) : State :=
  if s.isIdle l then s.modLane l fun c => { c with idle := some (100 * c.limits.idleTimeout) } else s

/-- R34, R37, R39: entry into RUN, at which a blank may be released or the idle timer start. -/
def State.enterRun (s : State) (l : Lane) : State := ((s.enterLane l .run).testRelease l).startIdle l

/-- R33, R40, R48, R50: a lane enters STARTING or RESUMING with a delay of d ms, or passes through it into
RUN when d is 0. -/
def State.enterDelayed (s : State) (l : Lane) (st : LaneState) (d : Nat) : State :=
  let entered := s.enterLane l st
  if d = 0 then entered.enterRun l else entered.modLane l fun c => { c with delay := some d }

/-! ## Drains and shortened queues (R41, R48) -/

/-- R48: a drain completes. -/
def State.completeDrain (s : State) (l : Lane) : State :=
  match (s.lane l).target with
  | .noTarget => s
  | .off => (s.modLane l fun c => { c with target := .noTarget }).enterLane l .off
  | .recipe =>
    let new := (s.lane l).pending.getD (s.lane l).current
    let taken := s.modLane l fun c => { c with target := .noTarget, current := new, pending := none }
    if new.toolSet = (s.lane l).current.toolSet then
      taken.enterDelayed l .resuming (s.lane l).limits.resumeDelay
    else (taken.enterLane l .toolChange).raise .toolChangeDue new.toolSet 0 0 (laneCode l)

/-- R47 to R49: a lane enters DRAIN with a target, and completes the drain at once on an empty queue. -/
def State.enterDrain (s : State) (l : Lane) (target : DrainTarget) : State :=
  let entered := (s.modLane l fun c => { c with target := target }).enterLane l .drain
  if s.queue l = [] then entered.completeDrain l else entered

/-- R41: a lane sees its queue shortened. -/
def State.queueShortened (s : State) (l : Lane) : State :=
  if (s.lane l).state = .drain ∧ s.queue l = [] then s.completeDrain l
  else (s.testRelease l).startIdle l

end Sys2Proof.Machine
end

