-- ==== Sys2Proof/Machine/Arbiter.lean ====
section
/-! DEFINITION. The merge arbiter's grants, and the hold-cause set that closes its slot (R55 to R58, R168 to
R170). -/

namespace Sys2Proof.Machine

/-! ## Requests and grants (R44, R55 to R58) -/

/-- Whether a lane's front record is AT_EXIT (R7). -/
def State.frontAtExit (s : State) (l : Lane) : Bool := (s.queue l).head?.any fun r => r.state == .atExit

/-- R44, R55: a lane's merge request stands. -/
def State.requests (s : State) (l : Lane) : Bool := s.frontAtExit l && !(s.lane l).outfeedOutput

/-- R57: the lane the policy names when both requests stand. -/
def Merge.favours (m : Merge) : Lane :=
  match m.policy with
  | .primaryA => .a
  | .primaryB => .b
  | .alternate => match m.lastWinner with
    | none => .a
    | some l => otherLane l

/-- R57: the lane whose request would be granted. -/
def State.winner (s : State) : Option Lane :=
  match s.requests .a, s.requests .b with
  | true, true => some s.merge.favours
  | true, false => some .a
  | false, true => some .b
  | false, false => none

/-- R56: the slot is open. -/
def State.slotOpen (s : State) : Bool := s.holds.isEmpty && s.merge.gapOpen

/-- R58 2 and 3: the record as it joins the transit list. -/
def State.granted (s : State) (r : StripRec) : StripRec :=
  { r with state := .transit, grantPos := some s.track.position }

/-- R58 1 to 3: the lane's front record leaves the queue and joins the tail of the transit list. -/
def State.toTransit (s : State) (l : Lane) (r : StripRec) (rest : List StripRec) : State :=
  { s.setQueue l rest with track.transit := s.track.transit ++ [s.granted r] }

/-- R44: the OUTFEED pulse starts. -/
def LaneCtl.startOutfeed (c : LaneCtl) : LaneCtl := { c with outfeedTimer := some c.limits.outfeedPulse }

/-- R58 6 to 8: the passed-over flags after a grant to a lane. -/
def State.passedAfter (s : State) (l : Lane) : PerLane Bool :=
  let other := if s.requests (otherLane l) then s.merge.passedOver.set (otherLane l) true else s.merge.passedOver
  other.set l false

/-- R58 5 to 8: the merge arbiter's own state after a grant to a lane. -/
def State.mergeAfter (s : State) (l : Lane) : Merge :=
  { s.merge with
    lastGrant := s.track.position
    gapOpen := false
    lastWinner := some l
    passedOver := s.passedAfter l }

/-- R58: a grant to a lane. The queue shortening of its first part (R41) acts on the lane last (log entry
16). -/
def State.grant (s : State) (l : Lane) : State :=
  match s.queue l with
  | [] => s
  | r :: rest =>
    let moved := (s.toTransit l r rest).modLane l LaneCtl.startOutfeed
    let won := { moved with merge := s.mergeAfter l }
    let waited := won.traceEntry (r.traced && s.passedOver l) .mergeWait 0 0
    (waited.traceEntry r.traced .granted 0 0).queueShortened l

/-- R57: the arbiter grants while the slot is open and a request stands, at most `fuel` times. With
MERGE_GAP 0 the gap-open flag is set again at the grant, and the other request is granted at once. Of the two
lanes granted by one event, the one granted first asks for a release first; R37 lets either be served first, and
the model fixes this order (log entry 24). -/
def State.arbitrateWhile : Nat → State → State
  | 0, s => s
  | fuel + 1, s =>
    match s.winner with
    | none => s
    | some l =>
      if s.slotOpen then
        if s.merge.mergeGap = 0 then
          arbitrateWhile fuel { s.grant l with merge.gapOpen := true }
        else s.grant l
      else s

/-- R57: one event of the arbiter. Each grant starts its lane's OUTFEED pulse, so there are at most two. -/
def State.arbitrate (s : State) : State := s.arbitrateWhile 2

/-! ## The hold-cause set (R168 to R170) -/

/-- R168 to R170: the hold-cause set becomes h. A change raises HOLD_CHANGE, and a set that has become
empty lets the merge arbiter grant. -/
def State.setHolds (s : State) (h : Holds) : State :=
  if h = s.holds then s
  else
    let changed := { s with holds := h }.raise .holdChange h.flags 0 0 (h.changed s.holds)
    if h.isEmpty then changed.arbitrate else changed

end Sys2Proof.Machine
end

