-- ==== Sys2Proof/Machine/Removal.lean ====
section
/-! DEFINITION. Removal of records: the one procedure of R21, with what each block undoes (R107, R155, R55,
R41, R193, R194, R12). -/

namespace Sys2Proof.Machine

/-- The removal causes but for CLEARED, which LINE_CLEAR makes as a whole (Table 1-9, R28). -/
inductive Cause
  | removed
  | laneCleared
  | missing
  | dropped
  | runout
deriving DecidableEq, Repr

/-- R193: the trace entry kind of a removal. -/
def Cause.traceKind : Cause → TraceKind
  | .removed => .removed
  | .laneCleared => .removed
  | .missing => .removed
  | .dropped => .dropped
  | .runout => .runout

/-- Table 10-9: the cause in a REMOVED entry's detail, 0 in the others. -/
def Cause.detail : Cause → Nat
  | .removed => 0
  | .laneCleared => 1
  | .missing => 2
  | .dropped => 0
  | .runout => 0

/-- R194: a trace IN_PROGRESS is complete and is held. -/
def State.holdTrace (s : State) : State :=
  if s.audit.trace = .inProgress then
    { s with audit.trace := .held }.raise .traceDone
      (traceDoneDetail s.audit.entries.length s.audit.truncated) s.audit.strip 0 (laneCode s.audit.lane)
  else s

/-- R193, R194: the removal entry of a traced record, and the end of its trace when no traced record is
left. -/
def State.auditRemoval (s : State) (traced : Bool) (k : Nat) (cause : Cause) : State :=
  let noted := s.traceEntry traced cause.traceKind cause.detail k
  if traced && noted.tracedCount == 0 then noted.holdTrace else noted

/-- R21: a strip record has left its list: its schedule entries are cancelled, the audit unit records it,
and the counts have changed. -/
def State.afterStripRemoval (s : State) (r : StripRec) (cause : Cause) : State :=
  ((s.cancelEntries fun e => e.names r.number 0).auditRemoval r.traced 0 cause).retest

/-- R21: a piece record has left the belt list. An ASSIGNED piece's commitment is lowered, unless it has
dropped. -/
def State.afterPieceRemoval (s : State) (r : PieceRec) (cause : Cause) : State :=
  let cancelled := s.cancelEntries fun e => e.names r.number r.index
  let lowered := match r.state.bin with
    | none => cancelled
    | some b => if cause = Cause.dropped then cancelled else cancelled.lower b r.number r.index
  (lowered.auditRemoval r.traced r.index cause).retest

/-- R21: remove a record from the belt list. -/
def State.removeBelt (s : State) (x : BeltRec) (cause : Cause) : State :=
  let out := { s with track.belt := s.track.belt.erase x }
  match x with
  | .strip r => out.afterStripRemoval r cause
  | .piece r => out.afterPieceRemoval r cause

/-- R21: remove a record from the transit list. -/
def State.removeTransit (s : State) (r : StripRec) (cause : Cause) : State :=
  State.afterStripRemoval { s with track.transit := s.track.transit.erase r } r cause

/-- R21, R25, R52: remove the front record of a lane queue. The merge request of an AT_EXIT record is
withdrawn with its passed-over flag (R55), and the lane sees its queue shortened (R41). When that completes a
drain which goes on into RUN at once (RESUME_DELAY 0), this lane asks for a release before the other one is told
of the changed counts; R37 lets either be served first, and the model fixes this order (log entry 24). -/
def State.removeFront (s : State) (l : Lane) : State :=
  match s.queue l with
  | [] => s
  | r :: rest =>
    let out := s.setQueue l rest
    let withdrawn := if r.state = .atExit then out.setPassedOver l false else out
    (withdrawn.queueShortened l).afterStripRemoval r .laneCleared

/-- Remove the front record of a lane queue so many times: the records of a lane are removed front first, an
order that R21 leaves open (log entry 23). -/
def State.removeFronts (l : Lane) : Nat → State → State
  | 0, s => s
  | n + 1, s => removeFronts l n (s.removeFront l)

end Sys2Proof.Machine
end

