-- ==== Sys2Proof/Machine/Ports.lean ====
section
/-! DEFINITION. The station ports' framing: how whole, incremental and read commands take the bytes of a
frame, and what a read hands over (R178 to R183; log entry 7). -/

namespace Sys2Proof.Machine

/-! ## The frame of a port (R178 to R180) -/

/-- Set how far a port's frame has come. -/
def State.setPhase (s : State) (p : PortId) (code : Byte) (ph : Phase) : State :=
  s.modPort p fun q => { q with frame := some ⟨code, ph⟩ }

/-- Set a port's result code (R179). -/
def State.setResult (s : State) (p : PortId) (r : Result) : State := s.modPort p fun q => { q with result := r }

/-- R179: the frame ends and the port's result code is replaced. -/
def State.closeFrame (s : State) (p : PortId) (r : Result) : State :=
  s.modPort p fun q => { q with result := r, frame := none }

/-- The number of parameter bytes of a whole or read command (Table 10-1). -/
def kindParams : CmdKind → Nat
  | .whole n => n
  | .incremental => 0
  | .read n => n

/-- The number of parameter bytes of a command (Table 10-1). -/
def cmdParams (c : Cmd) : Nat := kindParams c.row.kind

/-- How far the frame in progress at a port has come, if it is a frame of this code. -/
def State.phaseOf (s : State) (p : PortId) (code : Byte) : Option Phase :=
  match (s.port p).frame with
  | none => none
  | some f => if f.code = code then some f.phase else none

/-! ## Whole commands (R181) -/

/-- R181: a whole command at the end of its frame: examined by its own rule when exactly its parameter
bytes have arrived, else LENGTH. -/
def takeWhole (c : Cmd) (take : List Byte → State → State × Result) (p : PortId) (ps : List Byte) (s : State) :
    State :=
  if ps.length = cmdParams c then ((take ps s).1).setResult p (take ps s).2 else s.setResult p .length

/-- R180: the command byte of a whole command arrives at a port with no frame. -/
def openWhole (c : Cmd) (p : PortId) (s : State) : State :=
  s.setPhase p c.code (if (s.port p).role.mayIssue c then .whole [] else .refused .role)

/-- The end of a whole command's frame on a port with no frame before it: the whole frame at once. -/
def wholeAtOnce (c : Cmd) (take : List Byte → State → State × Result) (p : PortId) (bs : List Byte) (s : State) :
    State :=
  if (s.port p).role.mayIssue c then takeWhole c take p bs s else s.setResult p .role

/-- Bytes of a whole command arrive. -/
def wholeBytes (c : Cmd) (p : PortId) (bs : List Byte) (s : State) : State :=
  match s.phaseOf p c.code with
  | some (.whole buf) => s.setPhase p c.code (.whole (buf ++ bs))
  | some (.refused _) => s
  | some (.incremental _) => s
  | some (.reading _) => s
  | some (.answered _) => s
  | none => s

/-- Bytes arrive and then a whole command's frame ends, on a port with a frame. -/
def wholeEnds (c : Cmd) (take : List Byte → State → State × Result) (p : PortId) (bs : List Byte) (s : State) :
    State :=
  match s.phaseOf p c.code with
  | some (.whole buf) => takeWhole c take p (buf ++ bs) (s.modPort p fun q => { q with frame := none })
  | some (.refused r) => s.closeFrame p r
  | some (.incremental _) => s
  | some (.reading _) => s
  | some (.answered _) => s
  | none => s

/-- R178, R180, R181: a step of a whole command's frame. -/
def wholeStep (c : Cmd) (take : List Byte → State → State × Result) (p : PortId) (st : FrameStep) (s : State) :
    State :=
  match (s.port p).frame, st with
  | none, .opens => openWhole c p s
  | none, .bytes bs => wholeBytes c p bs (openWhole c p s)
  | none, .ends bs => wholeAtOnce c take p bs s
  | some _, .opens => s
  | some _, .bytes bs => wholeBytes c p bs s
  | some _, .ends bs => wholeEnds c take p bs s

/-! ## Reads and what they hand over (R183, R188, R189, R162, R195, R197) -/

/-- A read answered OK with its response and what it hands over. -/
def Answer.given (response : List Byte) (hand : Handover) : Answer := ⟨.ok, response, 0, hand⟩

/-- R183: a refused read shifts out zeros for its whole response. -/
def Answer.refuse (r : Result) : Answer := ⟨r, [], 0, .nothing⟩

/-- The number of response bytes after which the next record handed over has been shifted out whole: byte 3
of STATUS, byte 13 and every twelfth after it of READ_EVENTS, the last byte of a label, a trace or a fault
record. -/
def Answer.nextRelease (a : Answer) : Option Nat :=
  let at' : Option Nat := match a.hand with
    | .nothing => none
    | .flag _ => some 3
    | .events _ => some (12 * ((a.shifted - 1) / 12 + 1) + 1)
    | .label _ _ => some a.response.length
    | .trace => some a.response.length
    | .fault => some a.response.length
  at'.filter fun k => decide (a.shifted < k) && decide (k ≤ a.response.length)

/-- R189: STATUS clears the overflow flag, unless an event has been lost since the command byte. -/
def State.releaseFlag (s : State) (p : PortId) (lost : Bool) : State :=
  s.modPort p fun q => { q with overflow := lost }

/-- R188: the record at the head of the queue leaves it, unless ROLE_SET has discarded it. -/
def State.releaseEvent (s : State) (p : PortId) (discarded : Bool) : State :=
  if discarded then s else s.modPort p fun q => { q with queue := q.queue.tail }

/-- R162: the slot is freed if it still holds the label handed over, and composition proceeds. -/
def State.releaseLabel (s : State) (slot : Fin 2) (serial : BitVec 32) : State :=
  if (s.bnc.slots[slot]).any fun x => x.serial == serial then
    State.compose { s with
      bnc.slots := s.bnc.slots.set slot.val none slot.isLt
      bnc.take := otherSlot slot }
  else s

/-- R195: a held trace is freed. -/
def State.releaseTrace (s : State) : State :=
  if s.audit.trace = .held then
    { s with audit.trace := .none, audit.strip := 0, audit.lane := .a, audit.truncated := false, audit.entries := [] }
  else s

/-- R197: the fault record becomes empty. -/
def State.releaseFault (s : State) : State := { s with audit.fault := none }

/-- R183: the owner releases what has been handed over. -/
def State.releaseHand (s : State) (p : PortId) : Handover → State
  | .nothing => s
  | .flag lost => s.releaseFlag p lost
  | .events discarded => s.releaseEvent p discarded
  | .label slot serial => s.releaseLabel slot serial
  | .trace => s.releaseTrace
  | .fault => s.releaseFault

/-- The frame of a taken read has shifted out k response bytes. -/
def State.setShifted (s : State) (p : PortId) (code : Byte) (a : Answer) (k : Nat) : State :=
  s.setPhase p code (.answered { a with shifted := k })

/-- R183: one more response byte is shifted out, and what it completes is released. -/
def State.shiftByte (s : State) (p : PortId) (code : Byte) (a : Answer) : State :=
  let out := s.setShifted p code a (a.shifted + 1)
  if a.nextRelease = some (a.shifted + 1) then out.releaseHand p a.hand
  else if a.shifted < a.response.length then out
  else s

/-- R180, R183: the command byte of a read arrives at a port with no frame. A read with no parameters is
taken then. -/
def openRead (c : Cmd) (answer : PortId → List Byte → State → Answer) (p : PortId) (s : State) : State :=
  s.setPhase p c.code
    (if (s.port p).role.mayIssue c then
      if cmdParams c = 0 then .answered (answer p [] s) else .reading []
    else .refused .role)

/-- R183: one byte of a read's frame arrives: a parameter byte, the last of which takes the read, or a byte
during which a response byte is shifted out. -/
def readByte (c : Cmd) (answer : PortId → List Byte → State → Answer) (p : PortId) (s : State) (b : Byte) :
    State :=
  match s.phaseOf p c.code with
  | some (.reading buf) =>
    s.setPhase p c.code
      (if buf.length + 1 = cmdParams c then .answered (answer p (buf ++ [b]) s) else .reading (buf ++ [b]))
  | some (.answered a) => s.shiftByte p c.code a
  | some (.refused _) => s
  | some (.whole _) => s
  | some (.incremental _) => s
  | none => s

/-- Bytes of a read's frame arrive. -/
def readBytes (c : Cmd) (answer : PortId → List Byte → State → Answer) (p : PortId) (bs : List Byte) (s : State) :
    State :=
  bs.foldl (readByte c answer p) s

/-- R183: a read's frame ends. -/
def readEnd (c : Cmd) (p : PortId) (s : State) : State :=
  match s.phaseOf p c.code with
  | some (.reading _) => s.closeFrame p .length
  | some (.answered a) => s.closeFrame p a.result
  | some (.refused r) => s.closeFrame p r
  | some (.whole _) => s
  | some (.incremental _) => s
  | none => s

/-- R178, R180, R183: a step of a read's frame. -/
def readStep (c : Cmd) (answer : PortId → List Byte → State → Answer) (p : PortId) (st : FrameStep) (s : State) :
    State :=
  match (s.port p).frame, st with
  | none, .opens => openRead c answer p s
  | none, .bytes bs => readBytes c answer p bs (openRead c answer p s)
  | none, .ends bs => readEnd c p (readBytes c answer p bs (openRead c answer p s))
  | some _, .opens => s
  | some _, .bytes bs => readBytes c answer p bs s
  | some _, .ends bs => readEnd c p (readBytes c answer p bs s)

/-- A release row: response bytes are shifted out up to the one that completes the next record handed over,
and the record is released. Nothing happens on a port whose frame hands over no such record. -/
def releaseStep (isMine : Handover → Bool) (p : PortId) (s : State) : State :=
  match (s.port p).frame with
  | some ⟨code, .answered a⟩ =>
    match a.nextRelease with
    | some k => if isMine a.hand then (s.setShifted p code a k).releaseHand p a.hand else s
    | none => s
  | some ⟨_, .refused _⟩ => s
  | some ⟨_, .whole _⟩ => s
  | some ⟨_, .incremental _⟩ => s
  | some ⟨_, .reading _⟩ => s
  | none => s

/-! ## Incremental commands (R182) -/

/-- An incremental command: its header as the frame begins, the lengths of header and group, what a whole
header says, and what a whole group does. -/
structure Grouped where
  cmd : Cmd
  start : Header
  headerLength : Nat
  groupLength : Nat
  header : List Byte → Header
  apply : Incremental → List Byte → State → State × Incremental

/-- R180, R182: the command byte of an incremental command arrives at a port with no frame. -/
def openGrouped (g : Grouped) (p : PortId) (s : State) : State :=
  s.setPhase p g.cmd.code
    (if (s.port p).role.mayIssue g.cmd then .incremental ⟨g.start, [], false, none⟩ else .refused .role)

/-- R182: the header's last byte has arrived. -/
def Incremental.takeHeader (i : Incremental) (h : Header) : Incremental :=
  { i with header := h, buf := [], bad := i.bad || h == .failed }

/-- R182: one byte of an incremental frame arrives: of its header, or of a group, which is examined and
applied as soon as its last byte arrives. -/
def groupedByte (g : Grouped) (p : PortId) (s : State) (b : Byte) : State :=
  match s.phaseOf p g.cmd.code with
  | some (.incremental i) =>
    let buf := i.buf ++ [b]
    if i.header = .awaited then
      s.setPhase p g.cmd.code
        (.incremental (if buf.length = g.headerLength then i.takeHeader (g.header buf) else { i with buf := buf }))
    else if buf.length = g.groupLength then
      ((g.apply { i with buf := [] } buf s).1).setPhase p g.cmd.code
        (.incremental (g.apply { i with buf := [] } buf s).2)
    else s.setPhase p g.cmd.code (.incremental { i with buf := buf })
  | some (.refused _) => s
  | some (.whole _) => s
  | some (.reading _) => s
  | some (.answered _) => s
  | none => s

/-- Bytes of an incremental frame arrive. -/
def groupedBytes (g : Grouped) (p : PortId) (bs : List Byte) (s : State) : State :=
  bs.foldl (groupedByte g p) s

/-- R77, R182: the result of an incremental frame that ends unbroken. -/
def Incremental.result (i : Incremental) : Result :=
  if i.header = .awaited ∨ i.buf ≠ [] then .length
  else if i.busy = some true then .editionBusy
  else if i.bad then .badField
  else .ok

/-- R182: an incremental frame ends. -/
def groupedEnd (g : Grouped) (p : PortId) (s : State) : State :=
  match s.phaseOf p g.cmd.code with
  | some (.incremental i) => s.closeFrame p i.result
  | some (.refused r) => s.closeFrame p r
  | some (.whole _) => s
  | some (.reading _) => s
  | some (.answered _) => s
  | none => s

/-- R178, R180, R182: a step of an incremental frame. -/
def groupedStep (g : Grouped) (p : PortId) (st : FrameStep) (s : State) : State :=
  match (s.port p).frame, st with
  | none, .opens => openGrouped g p s
  | none, .bytes bs => groupedBytes g p bs (openGrouped g p s)
  | none, .ends bs => groupedEnd g p (groupedBytes g p bs (openGrouped g p s))
  | some _, .opens => s
  | some _, .bytes bs => groupedBytes g p bs s
  | some _, .ends bs => groupedEnd g p (groupedBytes g p bs s)

/-- Whether a port's frame is ready for the first byte of a group, or has been refused. -/
def State.awaitsGroup (s : State) (p : PortId) (code : Byte) : Bool :=
  match s.phaseOf p code with
  | some (.incremental i) => i.header != .awaited && i.buf.isEmpty
  | some (.refused _) => true
  | some (.whole _) => false
  | some (.reading _) => false
  | some (.answered _) => false
  | none => false

/-- R182: a whole group arrives, on a frame that awaits one; on a port with no frame, the command byte
first. -/
def groupStep (g : Grouped) (p : PortId) (bs : List Byte) (s : State) : State :=
  let t := if (s.port p).frame = none then openGrouped g p s else s
  if t.awaitsGroup p g.cmd.code then groupedBytes g p bs t else s

/-! ## Breaks and unlisted codes (R178, R180 to R183) -/

/-- R178, R180 to R183: the result of a frame that breaks. -/
def Phase.broken : Phase → Result
  | .refused r => r
  | .whole _ => .broken
  | .incremental _ => .broken
  | .reading _ => .broken
  | .answered a => a.result

/-- R178: a break: within the first byte when no frame is in progress, else within a later byte. -/
def breakFrame (p : PortId) (s : State) : State :=
  match (s.port p).frame with
  | none => s.setResult p .broken
  | some f => s.closeFrame p f.phase.broken

/-- R180: the frame of a code that Table 10-1 does not list. -/
def unlistedStep (code : Byte) (p : PortId) (st : FrameStep) (s : State) : State :=
  match (s.port p).frame, st with
  | none, .opens => s.setPhase p code (.refused .unknownCommand)
  | none, .bytes _ => s.setPhase p code (.refused .unknownCommand)
  | none, .ends _ => s.setResult p .unknownCommand
  | some _, .opens => s
  | some _, .bytes _ => s
  | some f, .ends _ => if f = ⟨code, .refused .unknownCommand⟩ then s.closeFrame p .unknownCommand else s

end Sys2Proof.Machine
end

