-- ==== Sys2Proof/Machine/Clock.lean ====
section
/-! DEFINITION. The two time bases count on: time passes in which nothing runs out (00_scope.md 1.6.2, R32, R96;
log entry 2). -/

namespace Sys2Proof.Machine

/-- R96: a channel's pulse or recovery, so many microsecond ticks later. -/
def ChannelState.countDown (us : Nat) : ChannelState → ChannelState
  | .idle => .idle
  | .pulsing left => .pulsing (left - us)
  | .recovering left => .recovering (left - us)

/-- A fire channel, so many microsecond ticks later. -/
def Channel.countDown (us : Nat) (c : Channel) : Channel := { c with state := c.state.countDown us }

/-- R32: a lane's timers, so many millisecond ticks later. A timer at 0 has run out and is due. -/
def LaneCtl.countDown (ms : Nat) (c : LaneCtl) : LaneCtl :=
  { c with
    delay := c.delay.map (· - ms)
    idle := c.idle.map (· - ms)
    releaseTimer := c.releaseTimer.map (· - ms)
    outfeedTimer := c.outfeedTimer.map (· - ms) }

/-- So many microseconds are counted, with a millisecond tick at every thousandth (log entry 2). What runs out
in them is not acted on here: State.elapse counts to no tick beyond the next run-out. -/
def State.countDown (s : State) (us : Nat) : State :=
  let total := s.time.subMs + us
  { s with
    time := ⟨s.time.ms + BitVec.ofNat 16 (total / 1000), total % 1000⟩
    lanes := ⟨s.lanes.a.countDown (total / 1000), s.lanes.b.countDown (total / 1000)⟩
    fire.channels := s.fire.channels.map (Channel.countDown us) }

/-- The microseconds to the d-th millisecond tick from now; none when d is 0. -/
def State.untilTick (s : State) (d : Nat) : Nat := if d = 0 then 0 else 1000 * d - s.time.subMs

end Sys2Proof.Machine
end

