-- ==== Sys2Proof/Machine/Lanes.lean ====
section
/-! DEFINITION. The commands and events of the lane controllers (R33 to R51). -/

namespace Sys2Proof.Machine

/-- What every rule of this model answers: a next state. The spec gives every command an effect. -/
abbrev Out := Host.Outcome State Fault Refusal

/-! ## Lane commands (Table 2-2) -/

/-- R33: a command whose one parameter is a lane code. -/
def takeLane (f : Lane → State → State × Result) (ps : List Byte) (s : State) : State × Result :=
  match ps with
  | [b] => match laneOfCode b with
    | some l => f l s
    | none => (s, .badField)
  | [] => (s, .length)
  | _ :: _ :: _ => (s, .length)

/-- R33: LANE_START on a lane. -/
def laneStart (l : Lane) (s : State) : State × Result :=
  if (s.lane l).state = .off then (s.enterDelayed l .starting (s.lane l).limits.startDelay, .ok) else (s, .state)

/-- R47: LANE_STOP on a lane. -/
def laneStop (l : Lane) (s : State) : State × Result :=
  match (s.lane l).state with
  | .off => (s, .ok)
  | .drain =>
    if (s.lane l).target = .recipe then (s.modLane l fun c => { c with target := .off, pending := none }, .ok)
    else (s, .ok)
  | .starting | .run | .standby | .resuming | .hold | .toolChange =>
    if s.queue l = [] then (s.enterLane l .off, .ok) else (s.enterDrain l .off, .ok)

/-- R45: LANE_HOLD on a lane. -/
def laneHold (l : Lane) (s : State) : State × Result :=
  match (s.lane l).state with
  | .starting | .run | .standby | .resuming => (s.enterLane l .hold, .ok)
  | .hold => (s, .ok)
  | .off | .drain | .toolChange => (s, .state)

/-- R46: LANE_RUN on a lane. -/
def laneRun (l : Lane) (s : State) : State × Result :=
  if (s.lane l).state = .hold then (s.enterRun l, .ok) else (s, .state)

/-- R50: TOOL_READY on a lane. -/
def toolReady (l : Lane) (s : State) : State × Result :=
  if (s.lane l).state = .toolChange then (s.enterDelayed l .starting (s.lane l).limits.startDelay, .ok)
  else (s, .state)

/-- R49: LANE_RECIPE on a lane. -/
def laneRecipe (l : Lane) (r : Recipe) (s : State) : State × Result :=
  match (s.lane l).state with
  | .off => (s.modLane l fun c => { c with current := r }, .ok)
  | .starting | .run | .standby | .resuming | .hold =>
    ((s.modLane l fun c => { c with pending := some r }).enterDrain l .recipe, .ok)
  | .drain | .toolChange => (s, .busy)

/-- R49: LANE_RECIPE's parameters. -/
def takeLaneRecipe (ps : List Byte) (s : State) : State × Result :=
  match ps with
  | [lane, profile, w1, w0, t1, t0, tool] =>
    match laneOfCode lane with
    | some l =>
      if profile.toNat ≤ 7 then laneRecipe l ⟨profile.toNat, word16 w1 w0, word16 t1 t0, tool.toNat⟩ s
      else (s, .badField)
    | none => (s, .badField)
  | _ => (s, .length)

/-- R33: LANE_START. -/
def execLaneStart (p : PortId) (st : FrameStep) (s : State) : Out :=
  .next (wholeStep .laneStart (takeLane laneStart) p st s)

/-- R47: LANE_STOP. -/
def execLaneStop (p : PortId) (st : FrameStep) (s : State) : Out :=
  .next (wholeStep .laneStop (takeLane laneStop) p st s)

/-- R45: LANE_HOLD. -/
def execLaneHold (p : PortId) (st : FrameStep) (s : State) : Out :=
  .next (wholeStep .laneHold (takeLane laneHold) p st s)

/-- R46: LANE_RUN. -/
def execLaneRun (p : PortId) (st : FrameStep) (s : State) : Out :=
  .next (wholeStep .laneRun (takeLane laneRun) p st s)

/-- R49: LANE_RECIPE. -/
def execLaneRecipe (p : PortId) (st : FrameStep) (s : State) : Out :=
  .next (wholeStep .laneRecipe takeLaneRecipe p st s)

/-- R50: TOOL_READY. -/
def execToolReady (p : PortId) (st : FrameStep) (s : State) : Out :=
  .next (wholeStep .toolReady (takeLane toolReady) p st s)

/-! ## Lane limits (R51) -/

/-- R39: a change of IDLE_TIMEOUT restarts a running idle timer, or stops it when it is 0. -/
def LaneCtl.setIdleTimeout (c : LaneCtl) (v : Nat) : LaneCtl :=
  { c with
    limits.idleTimeout := v
    idle := if c.idle.isSome && v != 0 then some (100 * v) else none }

/-- R51: the lane with a limit group applied; none when the group fails its conditions. -/
def LaneCtl.applyLimit (c : LaneCtl) (ident v : Nat) : Option LaneCtl :=
  match ident with
  | 0 => if 1 ≤ v ∧ v ≤ 12 ∧ c.state = .off then some { c with limits.capacity := v } else none
  | 1 => if v ≤ 60000 then some { c with limits.startDelay := v } else none
  | 2 => if v ≤ 60000 then some { c with limits.resumeDelay := v } else none
  | 3 => if v ≤ 65535 then some (c.setIdleTimeout v) else none
  | 4 => if 1 ≤ v ∧ v ≤ 255 then some { c with limits.releasePulse := v } else none
  | 5 => if 1 ≤ v ∧ v ≤ 255 then some { c with limits.outfeedPulse := v } else none
  | _ => none

/-- R51: a lane limit group on a lane. -/
def State.applyLaneLimit (s : State) (l : Lane) (ident v : Nat) : Option State :=
  ((s.lane l).applyLimit ident v).map fun c => s.modLane l fun _ => c

/-- R182: what a group that may fail does: its effect, or the frame's BAD_FIELD. -/
def applyOrFail (t : Option State) (s : State) (i : Incremental) : State × Incremental :=
  match t with
  | some t => (t, i)
  | none => (s, { i with bad := true })

/-- R51: a group of LANE_CONFIG in its frame. When the lane code named neither lane, no group is applied. -/
def laneConfigApply (i : Incremental) (bs : List Byte) (s : State) : State × Incremental :=
  match i.header, bs with
  | .lane l, [ident, v1, v0] => applyOrFail (s.applyLaneLimit l ident.toNat (word16 v1 v0)) s i
  | .lane _, _ => (s, i)
  | .awaited, _ => (s, i)
  | .noHeader, _ => (s, i)
  | .pointer _, _ => (s, i)
  | .failed, _ => (s, i)

/-- R51: LANE_CONFIG's header, the lane code. -/
def laneConfigHeader : List Byte → Header
  | [b] => match laneOfCode b with
    | some l => .lane l
    | none => .failed
  | _ => .failed

/-- R51, Table 10-1: LANE_CONFIG as an incremental command. -/
def laneConfigGrouped : Grouped := ⟨.laneConfig, .awaited, 1, 3, laneConfigHeader, laneConfigApply⟩

/-- The bytes of a limit group: identifier and 16-bit value (R51, R190). -/
def limitBytes (ident : Byte) (value : BitVec 16) : List Byte := ident :: be16 value.toNat

/-- R51: LANE_CONFIG. -/
def execLaneConfig (p : PortId) (st : FrameStep) (s : State) : Out :=
  .next (groupedStep laneConfigGrouped p st s)

/-- R51: a lane limit group arrives. -/
def execLaneConfigGroup (p : PortId) (ident : Byte) (value : BitVec 16) (s : State) : Out :=
  .next (groupStep laneConfigGrouped p (limitBytes ident value) s)

/-! ## The infeed (R35, R39, R40) -/

/-- R35, R39: BLANK_READY is active, the flag is set and the idle timer discarded. -/
def LaneCtl.blankArrives (c : LaneCtl) : LaneCtl :=
  { c with blankReady := true, blankWaiting := true, idle := none }

/-- R35, R37, R40: BLANK_READY becomes active. -/
def State.blankReadyActive (s : State) (l : Lane) : State :=
  if (s.lane l).blankReady then s
  else
    let t := s.modLane l LaneCtl.blankArrives
    if (s.lane l).state = .standby then t.enterDelayed l .resuming (s.lane l).limits.resumeDelay
    else t.testRelease l

/-- R35: BLANK_READY is inactive and the flag cleared. -/
def LaneCtl.blankLeaves (c : LaneCtl) : LaneCtl := { c with blankReady := false, blankWaiting := false }

/-- R35, R39: BLANK_READY becomes inactive. -/
def State.blankReadyInactive (s : State) (l : Lane) : State :=
  if (s.lane l).blankReady then (s.modLane l LaneCtl.blankLeaves).startIdle l else s

/-- R35: BLANK_READY_ACTIVE. -/
def execBlankReadyActive (l : Lane) (s : State) : Out := .next (s.blankReadyActive l)

/-- R35: BLANK_READY_INACTIVE. -/
def execBlankReadyInactive (l : Lane) (s : State) : Out := .next (s.blankReadyInactive l)

/-! ## The exit eye (R42, R43) -/

/-- R43, R171: an EXIT_STRAY: capture, FAULT event, then the PHANTOM cause. -/
def State.exitStray (s : State) (l : Lane) (n : StripNum) : State :=
  let t := s.lineFault .exitStray n 0 (laneCode l)
  t.setHolds { t.holds with phantom := true }

/-- R42: the front record becomes AT_EXIT, and a request that comes to stand may be granted (R57). -/
def State.frontExits (s : State) (l : Lane) (r : StripRec) (rest : List StripRec) : State :=
  let t := (s.setQueue l ({ r with state := .atExit } :: rest)).traceEntry r.traced .atExit 0 0
  if t.requests l then t.arbitrate else t

/-- R42, R43: a lead edge at a lane's exit eye. -/
def State.exitEye (s : State) (l : Lane) : State :=
  match s.queue l with
  | [] => s.exitStray l 0
  | r :: rest => if r.state = .inMoulder then s.frontExits l r rest else s.exitStray l r.number

/-- R42: EXIT_EYE_LEAD_EDGE. -/
def execExitEyeLeadEdge (l : Lane) (s : State) : Out := .next (s.exitEye l)

/-! ## The ends of the pulses (R37, R38, R44) -/

/-- R37, R38: the RELEASE pulse ends. -/
def State.releaseEnds (s : State) (l : Lane) : State :=
  (s.modLane l fun c => { c with releaseTimer := none }).testRelease l

/-- R44: the OUTFEED pulse ends, and a request that comes to stand may be granted (R57). -/
def State.outfeedEnds (s : State) (l : Lane) : State :=
  let t := s.modLane l fun c => { c with outfeedTimer := none }
  if t.requests l then t.arbitrate else t

end Sys2Proof.Machine
end

