-- ==== Sys2Proof/Machine/Gauge.lean ====
section
/-! DEFINITION. The merge gap, the transit list and the entry gauge (R56, R61 to R69). -/

namespace Sys2Proof.Machine

/-! ## The merge gap (R56) -/

/-- R56: the belt position has reached the last-grant position plus a gap. -/
def State.gapReached (s : State) (gap : Nat) : Bool := s.reached (beyond s.merge.lastGrant gap)

/-- R56: the gap-open flag is to be set. -/
def State.gapDue (s : State) : Bool := !s.merge.gapOpen && s.gapReached s.merge.mergeGap

/-- R56, R57: the gap-open flag is set, and a standing request may be granted. -/
def State.openGap (s : State) : State := State.arbitrate { s with merge.gapOpen := true }

/-- R56: GAP_OPEN_SET, when the belt has reached the end of the gap (log entry 6). -/
def execGapOpenSet (s : State) : Out := .next (if s.gapDue then s.openGap else s)

/-! ## The transit timeout (R61) -/

/-- R61: a record's transit timeout has been reached. -/
def State.transitDue (s : State) (r : StripRec) : Bool :=
  r.grantPos.any fun g => s.reached (beyond g s.merge.transitMax)

/-- R61: the oldest transit record is removed as MISSING and reported. -/
def State.missing (s : State) (r : StripRec) : State :=
  (s.removeTransit r .missing).lineFault .missing r.number 0 (laneCode r.lane)

/-- R61: every record whose timeout has been reached is removed in turn, oldest first. -/
def State.timeoutWhile : Nat → State → State
  | 0, s => s
  | fuel + 1, s =>
    match s.track.transit with
    | [] => s
    | r :: _ => if s.transitDue r then timeoutWhile fuel (s.missing r) else s

/-- R61: the test of the transit timeout. -/
def State.testTransit (s : State) : State := s.timeoutWhile s.track.transit.length

/-- R61: TRANSIT_TIMEOUT. -/
def execTransitTimeout (s : State) : Out := .next s.testTransit

/-! ## The entry eye (R64 to R69) -/

/-- The MEASURING record (R65). -/
def State.measuring (s : State) : Option StripRec := s.beltStrips.find? fun r => r.state == .measuring

/-- R66, R171: a PHANTOM_EYE: capture, FAULT event, then the PHANTOM cause. -/
def State.phantomEye (s : State) : State :=
  let t := s.lineFault .phantomEye 0 0 0
  t.setHolds { t.holds with phantom := true }

/-- R64: the oldest transit record takes the current belt position as its lead position. -/
def State.led (s : State) (r : StripRec) : StripRec := { r with state := .measuring, lead := some s.track.position }

/-- R64: a lead edge in CLEAR. -/
def State.objectStarts (s : State) : State :=
  let covered := { s with gauge.eye := .covered, gauge.objectStart := s.track.position }
  match s.track.transit with
  | [] => State.phantomEye { covered with gauge.untracked := true }
  | r :: rest =>
    State.traceEntry
      { covered with
        gauge.untracked := false
        track.transit := rest
        track.belt := s.track.belt ++ [.strip (s.led r)] }
      r.traced .eyeLead 0 0

/-- R64: a lead edge at the entry eye. None comes in COVERED, since edges alternate (log entry 8). -/
def State.leadEdge (s : State) : State :=
  match s.gauge.eye with
  | .clear => s.objectStarts
  | .trailHeld => { s with gauge.eye := .covered }
  | .covered => s

/-- R68: an out-of-range strip as planned by the entry gauge. -/
def StripRec.outOfRangeAt (r : StripRec) (len : Nat) : StripRec :=
  { r with
    length := some len
    outOfRange := true
    state := .planned
    plan := some ⟨[⟨0, len, 0⟩], .default, some ⟨.reject, .length⟩⟩ }

/-- R68: a strip is planned as out of range; LONG is detail code 1, SHORT 0. -/
def State.planOutOfRange (s : State) (r : StripRec) (len : Nat) (long : Bool) : State :=
  ((s.modBeltStrip r.number fun x => x.outOfRangeAt len).traceEntry r.traced .planned
    PlanSource.default.code 0).raise .outOfRange long.toNat r.number 0 len

/-- The belt travel since a record's lead edge (R67, R69). -/
def State.travel (s : State) (r : StripRec) : Nat := (s.track.position - r.lead.getD 0).toNat

/-- R67: a strip within limits becomes AWAIT_GRADE and is reported to the scanner. -/
def State.measured (s : State) (r : StripRec) (len : Nat) : State :=
  (s.modBeltStrip r.number fun x => { x with length := some len, state := .awaitGrade }).raise .stripMeasured
    (measuredDetail r.lane r.profile) r.number 0 len

/-- R67, R68: a MEASURING record is measured at the object's end. -/
def State.measure (s : State) (r : StripRec) : State :=
  let len := s.travel r
  let t := s.traceEntry r.traced .eyeTrail 0 0
  if len < s.gauge.minStrip then t.planOutOfRange r len false
  else if s.gauge.maxStrip < len then t.planOutOfRange r len true
  else t.measured r len

/-- R65: the object's end. -/
def State.objectEnds (s : State) : State :=
  let t := { s with gauge.eye := .clear }
  match s.measuring with
  | some r => t.measure r
  | none => if s.gauge.untracked then { t with gauge.untracked := false } else t.phantomEye

/-- R65: a trail edge at the entry eye. One that finds the eye not COVERED is no edge (log entry 8). -/
def State.trailEdge (s : State) : State :=
  match s.gauge.eye with
  | .covered =>
    if s.track.position = s.gauge.objectStart then { s with gauge.eye := .trailHeld } else s.objectEnds
  | .clear => s
  | .trailHeld => s

/-- R64: ENTRY_EYE_LEAD_EDGE. -/
def execEntryEyeLeadEdge (s : State) : Out := .next s.leadEdge

/-- R65: ENTRY_EYE_TRAIL_EDGE. -/
def execEntryEyeTrailEdge (s : State) : Out := .next s.trailEdge

/-- R69: the MEASURING record that is to be cut off. -/
def State.cutOffDue (s : State) : Option StripRec :=
  s.measuring.filter fun r => decide (s.gauge.maxStrip < s.travel r)

/-- R69: the over-length cut-off of a MEASURING record. -/
def State.cutOff (s : State) (r : StripRec) : State :=
  let t := (s.traceEntry r.traced .eyeTrail 0 0).planOutOfRange r (s.travel r) true
  { t with gauge.untracked := true }

/-- R69: the test of the over-length cut-off. -/
def State.testCutOff (s : State) : State :=
  match s.cutOffDue with
  | some r => s.cutOff r
  | none => s

/-- R69: OVER_LENGTH_CUT_OFF. -/
def execOverLengthCutOff (s : State) : Out := .next s.testCutOff

end Sys2Proof.Machine
end

