-- ==== Sys2Proof/Machine/Grading.lean ====
section
/-! DEFINITION. The grading unit: the grade map, the grading mode, verdicts and the deadline (R71 to R90). -/

namespace Sys2Proof.Machine

/-! ## The grade map (R71 to R78) -/

/-- The place of a profile code and face class in an edition (R71). -/
def mapPlace (profile faceClass : Nat) : Nat := 16 * profile + faceClass

/-- An edition's entries (R71). -/
def Grading.edition (g : Grading) : Edition → Vector Grade 128
  | .e0 => g.map0
  | .e1 => g.map1

/-- R73: the grade of a profile code and face class in an edition. -/
def Grading.gradeOf (g : Grading) (e : Edition) (profile faceClass : Nat) : Grade :=
  ((g.edition e)[mapPlace profile faceClass]?).getD .regrade

/-- Write one entry of an edition (R75). -/
def Grading.write (g : Grading) (e : Edition) (i : Fin 128) (v : Grade) : Grading :=
  match e with
  | .e0 => { g with map0 := g.map0.set i.val v i.isLt }
  | .e1 => { g with map1 := g.map1.set i.val v i.isLt }

/-- R74: MAP_WRITE's start group: profile code and face class. -/
def mapStart : List Byte → Header
  | [profile, face] =>
    if h : profile.toNat < 8 ∧ face.toNat < 16 then
      .pointer ⟨mapPlace profile.toNat face.toNat, by unfold mapPlace; omega⟩
    else .failed
  | _ => .failed

/-- R76: whether the grade bytes of a frame are ignored: judged at its first grade byte by the inactive
edition's reference count. -/
def State.mapBusy (s : State) (i : Incremental) : Bool :=
  i.busy.getD (decide (0 < s.referenceCount s.grading.active.other))

/-- R75: the write pointer advances by one face class, and from the last entry to the first. -/
def nextPlace (i : Fin 128) : Fin 128 := i + 1

/-- R75: a grade byte at the write pointer, in a frame whose bytes are not ignored. -/
def writeGrade (i : Incremental) (at' : Fin 128) (b : Byte) (s : State) : State × Incremental :=
  match Grade.ofCode b with
  | some v =>
    ({ s with grading := s.grading.write s.grading.active.other at' v }, { i with header := .pointer (nextPlace at') })
  | none => (s, { i with header := .pointer (nextPlace at'), bad := true })

/-- R75, R76: a grade byte in a frame of which it is known whether its bytes are ignored. -/
def gradeByte (i : Incremental) (busy : Bool) (b : Byte) (s : State) : State × Incremental :=
  if busy then (s, i)
  else match i.header with
    | .pointer at' => writeGrade i at' b s
    | .awaited => (s, i)
    | .noHeader => (s, i)
    | .lane _ => (s, i)
    | .failed => (s, i)

/-- R74 to R76: a group of MAP_WRITE in its frame. -/
def mapApply (i : Incremental) (bs : List Byte) (s : State) : State × Incremental :=
  match bs with
  | [b] => gradeByte { i with busy := some (s.mapBusy i) } (s.mapBusy i) b s
  | _ => (s, i)

/-- R74, Table 10-1: MAP_WRITE as an incremental command. -/
def mapGrouped : Grouped := ⟨.mapWrite, .awaited, 2, 1, mapStart, mapApply⟩

/-- R74: MAP_WRITE. -/
def execMapWrite (p : PortId) (st : FrameStep) (s : State) : Out := .next (groupedStep mapGrouped p st s)

/-- R75: a grade byte of a MAP_WRITE frame arrives. -/
def execMapWriteGradeByte (p : PortId) (grade : Byte) (s : State) : Out := .next (groupStep mapGrouped p [grade] s)

/-- R78: MAP_COMMIT exchanges the editions. -/
def takeMapCommit (_ : List Byte) (s : State) : State × Result :=
  ({ s with grading.active := s.grading.active.other }, .ok)

/-- R78: MAP_COMMIT. -/
def execMapCommit (p : PortId) (st : FrameStep) (s : State) : Out := .next (wholeStep .mapCommit takeMapCommit p st s)

/-! ## The grading mode (R80) -/

/-- R80: GRADE_MODE. -/
def takeGradeMode (ps : List Byte) (s : State) : State × Result :=
  match ps with
  | [b] => match GradeMode.ofCode b with
    | some m => ({ s with grading.mode := m }, .ok)
    | none => (s, .badField)
  | _ => (s, .length)

/-- R80: GRADE_MODE. -/
def execGradeMode (p : PortId) (st : FrameStep) (s : State) : Out := .next (wholeStep .gradeMode takeGradeMode p st s)

/-! ## Verdicts and grade entries (R81 to R86) -/

/-- The mode that admits a source (R80). -/
def admits (m : GradeMode) (source : PlanSource) : Bool :=
  match m, source with
  | .scanner, .scanner => true
  | .manual, .manual => true
  | .scanner, .manual => false
  | .manual, .scanner => false
  | _, .default => false

/-- The outcome of the strip number lookup (R83). -/
inductive Lookup
  | waiting (r : StripRec)
  | refused (r : Result)
deriving DecidableEq, Repr

/-- Table 4-1: the outcome a plan source gives. -/
def sourceResult : PlanSource → Result
  | .default => .tooLate
  | .scanner => .already
  | .manual => .already

/-- Table 4-1: the lookup of a strip record. -/
def lookupStrip (r : StripRec) : Lookup :=
  match r.state with
  | .awaitGrade => .waiting r
  | .inMoulder | .atExit | .transit | .measuring => .refused .notYet
  | .planned => .refused (r.plan.elim .already fun p => sourceResult p.source)

/-- R83: the lookup of a strip number. -/
def State.lookup (s : State) (n : StripNum) : Lookup :=
  match s.strip n with
  | some r => lookupStrip r
  | none =>
    match s.pieces.find? fun r => r.number == n with
    | some r => .refused (sourceResult r.source)
    | none => .refused .notFound

/-- The segments a grading command uses (R81). -/
def Grading.Command.used (c : Grading.Command) : List Segment := c.places.take c.count

/-- R84: one segment used: face class, start before end within the length, and at least SEG_MIN long. -/
def segmentPasses (len segMin : Nat) (g : Segment) : Bool :=
  decide (g.faceClass ≤ 15) && decide (g.start < g.stop) && decide (g.stop ≤ len) &&
    decide (segMin ≤ g.stop - g.start)

/-- R84: each segment after the first starts at or beyond the end of the one before it. -/
def ascending : List Segment → Bool
  | [] => true
  | [_] => true
  | g :: h :: rest => decide (g.stop ≤ h.start) && ascending (h :: rest)

/-- R84: the plan check. -/
def planPasses (len segMin : Nat) (c : Grading.Command) : Bool :=
  decide (1 ≤ c.count) && decide (c.count ≤ 4) && c.used.all (segmentPasses len segMin) && ascending c.used

/-- R85: a measurement beside its nominal size and tolerance, without wrapping. -/
def outOfTolerance (measured : Option Nat) (nominal tol : Nat) : Bool :=
  measured.any fun m => decide (m + tol < nominal) || decide (nominal + tol < m)

/-- R85: the plan grade override. -/
def Grading.overrideOf (g : Grading) (c : Grading.Command) (r : StripRec) : Option Override :=
  if outOfTolerance c.width r.widthNominal g.widthTol then some ⟨.reject, .width⟩
  else if outOfTolerance c.thickness r.thicknessNominal g.thickTol then some ⟨.reject, .thickness⟩
  else if c.moisture.any fun m => decide (m < g.moistMin) || decide (g.moistMax < m) then some ⟨.regrade, .moisture⟩
  else none

/-- R86: the strip record as a grading command plans it. -/
def Grading.plannedBy (g : Grading) (c : Grading.Command) (source : PlanSource) (r : StripRec) : StripRec :=
  { r with
    state := .planned
    plan := some ⟨c.used, source, g.overrideOf c r⟩
    width := c.width
    thickness := c.thickness
    moisture := c.moisture }

/-- R86: a grading command is taken. -/
def State.planStrip (s : State) (c : Grading.Command) (source : PlanSource) (r : StripRec) : State :=
  (s.modBeltStrip r.number (s.grading.plannedBy c source)).traceEntry r.traced .planned source.code 0

/-- R82: the examination of a grading command. -/
def examine (source : PlanSource) (c : Grading.Command) (s : State) : State × Result :=
  if !admits s.grading.mode source then (s, .mode)
  else if c.number = 0 then (s, .badField)
  else match s.lookup c.number with
    | .refused r => (s, r)
    | .waiting r =>
      if planPasses (r.length.getD 0) s.grading.segMin c then (s.planStrip c source r, .ok) else (s, .badPlan)

/-- R82: a grading command's parameters (Table 10-7). -/
def takeGrading (source : PlanSource) (ps : List Byte) (s : State) : State × Result :=
  match gradingCommand ps with
  | some c => examine source c s
  | none => (s, .length)

/-- R82: VERDICT. -/
def execVerdict (p : PortId) (st : FrameStep) (s : State) : Out :=
  .next (wholeStep .verdict (takeGrading .scanner) p st s)

/-- R82: GRADE_ENTRY. -/
def execGradeEntry (p : PortId) (st : FrameStep) (s : State) : Out :=
  .next (wholeStep .gradeEntry (takeGrading .manual) p st s)

/-! ## The deadline (R88, R89) -/

/-- R20: a record arrives at a mark. -/
def State.arrivesAt (s : State) (lead : Pos) (offset : Nat) : Bool := beyond lead offset == s.track.position

/-- R88: a strip planned by default. -/
def StripRec.defaulted (r : StripRec) : StripRec :=
  { r with
    state := .planned
    plan := some ⟨[⟨0, r.length.getD 0, 0⟩], .default, some ⟨.regrade, .defaulted⟩⟩ }

/-- R89: VERDICT_LATE, once to the scanner role and once to the supervisor; one event when no port holds
the scanner role. -/
def State.verdictLate (s : State) (r : StripRec) : State :=
  let t := s.raise .verdictLate 0 r.number 0 (laneCode r.lane)
  if s.roleHolder .scanner = 0 then t else t.raiseAt 0 .verdictLate 0 r.number 0 (laneCode r.lane)

/-- R88: the deadline arrival of a strip in AWAIT_GRADE. -/
def State.defaultStrip (s : State) (r : StripRec) : State :=
  ((s.modBeltStrip r.number StripRec.defaulted).traceEntry r.traced .planned PlanSource.default.code 0).verdictLate r

/-- R20: a strip record's arrival at a mark is due. -/
def State.stripDue (s : State) (r : StripRec) (offset : Nat) : Bool := r.lead.any fun p => s.arrivesAt p offset

/-- R88: the deadline arrival acts on a strip in AWAIT_GRADE; one that is PLANNED or MEASURING is left. -/
def State.deadlineDue (s : State) (r : StripRec) : Bool :=
  r.state == .awaitGrade && s.stripDue r s.track.marks.deadline

/-- R88: the deadline arrival of a strip number. -/
def State.deadlineArrival (s : State) (n : StripNum) : State :=
  match s.beltStrip n with
  | some r => if s.deadlineDue r then s.defaultStrip r else s
  | none => s

/-- R88: DEADLINE_ARRIVAL. -/
def execDeadlineArrival (n : StripNum) (s : State) : Out := .next (s.deadlineArrival n)

end Sys2Proof.Machine
end

