-- ==== Sys2Proof/Machine/Cut.lean ====
section
/-! DEFINITION. The cut planner: the split at the TRIM mark and the outcomes of the saw and the end-matcher
(R112 to R123). -/

namespace Sys2Proof.Machine

/-! ## The pieces of a strip (R113 to R115) -/

/-- R114 step 2: the reason a map grade gives. -/
def gradeReason : Grade → Option Reason
  | .commercial _ => none
  | .reject => some .rejectGrade
  | .regrade => some .regradeGrade

/-- R114: a piece's grade. -/
def State.pieceGrade (s : State) (r : StripRec) (plan : Plan) (faceClass : Nat) : Grade :=
  match plan.override with
  | some o => o.grade
  | none => s.grading.gradeOf r.edition r.profile faceClass

/-- R114: a piece's reason before the tests of R115. -/
def State.planReason (s : State) (r : StripRec) (plan : Plan) (faceClass : Nat) : Option Reason :=
  match plan.override with
  | some o => some o.reason
  | none => gradeReason (s.pieceGrade r plan faceClass)

/-- R115: a segment's piece is short: its length minus EM_TRIM, as a signed number, is below EM_MIN. -/
def State.isShort (s : State) (len : Nat) : Bool := decide (len < s.cut.emMin + s.cut.emTrim)

/-- R115: a segment's piece is over-long. -/
def State.isOverLong (s : State) (len : Nat) : Bool :=
  !s.isShort len && decide (s.track.marks.sort ≤ s.track.marks.endmatch + len)

/-- R115: a segment's piece is end-matched. -/
def State.isEndMatched (s : State) (len : Nat) : Bool := !s.isShort len && !s.isOverLong len

/-- R115: the reason the tests give a piece that has none. -/
def State.testReason (s : State) (len : Nat) : Option Reason :=
  if s.isShort len then some .short else if s.isOverLong len then some .endFault else none

/-- The length of a segment. -/
def Segment.len (g : Segment) : Nat := g.stop - g.start

/-- R113: the fields every piece of a strip has in common, for a stretch of it. -/
def State.pieceFrom (s : State) (r : StripRec) (plan : Plan) (k start len faceClass : Nat) (why : Option Reason) :
    PieceRec where
  number := r.number
  index := k
  lane := r.lane
  profile := r.profile
  width := r.width.getD r.widthNominal
  edition := r.edition
  lead := beyond (r.lead.getD 0) start
  segLength := len
  finalLength := len
  faceClass := faceClass
  grade := s.pieceGrade r plan faceClass
  source := plan.source
  reason := why
  tongueDone := false
  grooveDone := false
  state := .onBelt
  traced := r.traced

/-- R113 to R115: the piece of one segment. -/
def State.pieceOf (s : State) (r : StripRec) (plan : Plan) (k : Nat) (g : Segment) : PieceRec :=
  s.pieceFrom r plan k g.start g.len g.faceClass
    ((s.planReason r plan g.faceClass).or (s.testReason g.len))

/-- R113: the pieces of a strip, one for each segment. -/
def State.piecesOf (s : State) (r : StripRec) (plan : Plan) : List PieceRec :=
  plan.segments.mapIdx (s.pieceOf r plan)

/-- R119: the one piece of a strip whose strokes find no schedule space. -/
def State.faultPiece (s : State) (r : StripRec) (plan : Plan) : PieceRec :=
  s.pieceFrom r plan 0 0 (r.length.getD 0) (plan.segments.head?.elim 0 Segment.faceClass) (some .trimFault)

/-! ## The strokes of a strip (R116 to R118) -/

/-- Put a number into its place in a strictly rising list, once. -/
def insertOnce (x : Nat) : List Nat → List Nat
  | [] => [x]
  | y :: ys => if x < y then x :: y :: ys else if x = y then y :: ys else y :: insertOnce x ys

/-- The starts and ends of a plan's segments. -/
def boundaries (segments : List Segment) : List Nat := segments.flatMap fun g => [g.start, g.stop]

/-- R116: the cut offsets, in ascending order. -/
def cutOffsets (len : Nat) (segments : List Segment) : List Nat :=
  ((boundaries segments).filter fun x => decide (0 < x) && decide (x < len)).foldr insertOnce []

/-- R116: the piece a cut names: the one whose segment starts at the offset, else the one whose segment ends
there. -/
def cutNames (segments : List Segment) (offset : Nat) : Nat :=
  ((segments.findIdx? fun g => g.start == offset).or (segments.findIdx? fun g => g.stop == offset)).getD 0

/-- R116: the saw strokes of a strip. -/
def State.cutEntries (s : State) (r : StripRec) (plan : Plan) : List FireEntry :=
  (cutOffsets (r.length.getD 0) plan.segments).map fun x =>
    ⟨beyond (r.lead.getD 0) (s.track.marks.trim + x), trimChannel, r.number, cutNames plan.segments x, .cut⟩

/-- R117: the end-match strokes of a piece. -/
def State.endMatchEntries (s : State) (q : PieceRec) : List FireEntry :=
  if s.isEndMatched q.segLength then
    [⟨beyond q.lead s.track.marks.endmatch, tongueChannel, q.number, q.index, .tongue⟩,
     ⟨beyond q.lead (s.track.marks.endmatch + q.segLength), grooveChannel, q.number, q.index, .groove⟩]
  else []

/-- R118: the group of a strip's strokes. -/
def State.strokes (s : State) (r : StripRec) (plan : Plan) : List FireEntry :=
  s.cutEntries r plan ++ (s.piecesOf r plan).flatMap s.endMatchEntries

/-! ## The split (R112, R118, R119) -/

/-- R8, R13: the strip record of a number is replaced in its place by its pieces. -/
def State.replaceStrip (s : State) (n : StripNum) (qs : List PieceRec) : State :=
  { s with track.belt := s.track.belt.flatMap fun
      | .strip r => if r.number = n then qs.map .piece else [.strip r]
      | .piece r => [.piece r] }

/-- R119: the TRIM_FAULT piece and its fault. -/
def State.trimFault (s : State) (r : StripRec) (plan : Plan) : State :=
  (s.replaceStrip r.number [s.faultPiece r plan]).lineFault .scheduleFull r.number 0 trimChannel.val

/-- R112: the split of a PLANNED strip. The counts change, so each lane tests its release conditions
(R12). -/
def State.split (s : State) (r : StripRec) (plan : Plan) : State :=
  match s.placeGroup (s.strokes r plan) with
  | some t => (t.replaceStrip r.number (s.piecesOf r plan)).retest
  | none => (s.trimFault r plan).retest

/-- R112: a strip's TRIM arrival is due and finds it PLANNED. -/
def State.trimDue (s : State) (r : StripRec) : Bool := r.state == .planned && s.stripDue r s.track.marks.trim

/-- R112: the trim arrival of a strip number. -/
def State.trimArrival (s : State) (n : StripNum) : State :=
  match s.beltStrip n with
  | some r =>
    match r.plan with
    | some plan => if s.trimDue r then s.split r plan else s
    | none => s
  | none => s

/-- R112: TRIM_ARRIVAL. -/
def execTrimArrival (n : StripNum) (s : State) : Out := .next (s.trimArrival n)

/-! ## Outcomes (R120 to R123) -/

/-- Whether an entry is an end-match stroke of a piece of this strip that is still in the track. -/
def State.endMatchOf (s : State) (n : StripNum) (e : FireEntry) : Bool :=
  e.endMatch && e.number == n && (s.piece n e.index).isSome

/-- R120: a missed cut taints every piece of its strip and withdraws their end-match strokes. -/
def State.taint (s : State) (n : StripNum) : State :=
  (s.modPieces (fun r => r.number == n) fun r => { r with reason := some .trimFault }).cancelEntries
    (s.endMatchOf n)

/-- R122: a piece's final length follows from its done flags. -/
def PieceRec.settleLength (r : PieceRec) (emTrim : Nat) : PieceRec :=
  { r with finalLength := if r.tongueDone && r.grooveDone then r.segLength - emTrim else r.segLength }

/-- R122: a FIRED tongue. -/
def State.tongueFired (s : State) (n : StripNum) (k : Nat) : State :=
  s.modPiece n k fun r => { r with tongueDone := true }.settleLength s.cut.emTrim

/-- R122: a FIRED groove. -/
def State.grooveFired (s : State) (n : StripNum) (k : Nat) : State :=
  s.modPiece n k fun r => { r with grooveDone := true }.settleLength s.cut.emTrim

/-- R123: a MISSED end-match stroke gives END_FAULT to a piece with no reason and withdraws the piece's
strokes of the other end-match purpose. -/
def State.endMissed (s : State) (n : StripNum) (k : Nat) (other : Purpose) : State :=
  (s.modPiece n k fun r => { r with reason := r.reason.or (some .endFault) }).cancelEntries fun e =>
    e.purpose == other && e.names n k

/-- R105, R120, R122, R123, R152: an outcome is handed to the block that placed the entry. The bin controller
changes nothing at a gate's outcome. -/
def State.handOn (s : State) (e : FireEntry) (o : FireOutcome) : State :=
  match e.purpose, o with
  | .cut, .fired => s
  | .cut, .missed _ => s.taint e.number
  | .tongue, .fired => s.tongueFired e.number e.index
  | .tongue, .missed _ => s.endMissed e.number e.index .groove
  | .groove, .fired => s.grooveFired e.number e.index
  | .groove, .missed _ => s.endMissed e.number e.index .tongue
  | .gate, .fired => s
  | .gate, .missed _ => s

end Sys2Proof.Machine
end

