-- ==== Sys2Proof/Machine/Fire.lean ====
section
/-! DEFINITION. The fire sequencer's commands and events: requests, the guard input, channel timing (R95 to
R106, R172). -/

namespace Sys2Proof.Machine

/-! ## Fire requests (R104 to R106) -/

/-- R105: the trace entry kind of a purpose and outcome. -/
def outcomeKind : Purpose → FireOutcome → TraceKind
  | .cut, .fired => .cutFired
  | .cut, .missed _ => .cutMissed
  | .tongue, .fired => .tongueFired
  | .tongue, .missed _ => .tongueMissed
  | .groove, .fired => .grooveFired
  | .groove, .missed _ => .grooveMissed
  | .gate, .fired => .gateFired
  | .gate, .missed _ => .gateMissed

/-- R106: a MISSED request raises FIRE_MISSED and offers its fault. -/
def State.reportMiss (s : State) (e : FireEntry) : FireOutcome → State
  | .fired => s
  | .missed byGuard =>
    (s.raise .fireMissed (missedDetail e.purpose byGuard) e.number e.index e.channel.val).offerFault .fireMissed
      e.number e.index e.channel.val

/-- Whether the record an entry names is traced. -/
def State.entryTraced (s : State) (e : FireEntry) : Bool := (s.piece e.number e.index).any fun r => r.traced

/-- R105: an outcome is reported and handed on, in the order of its three parts. -/
def State.report (s : State) (e : FireEntry) (o : FireOutcome) : State :=
  ((s.traceEntry (s.entryTraced e) (outcomeKind e.purpose o) 0 e.index).reportMiss e o).handOn e o

/-- R104: a channel's schedule entry is due. -/
def State.entryDue (s : State) (c : ChannelId) (e : FireEntry) : Bool :=
  e.channel == c && e.position == s.track.position

/-- R95, R104: an entry that has left the schedule is sent to its channel, answered and reported. -/
def State.sendRequest (s : State) (e : FireEntry) : State :=
  let o := (s.channel e.channel).answer s.guardOpen
  (s.modChannel e.channel fun x => x.request s.guardOpen).report e o

/-- R104: the first entry due on a channel leaves the schedule and is sent to it. -/
def State.fireRequest (s : State) (c : ChannelId) : State :=
  match s.fire.schedule.find? (s.entryDue c) with
  | some e => State.sendRequest { s with fire.schedule := s.fire.schedule.eraseP (s.entryDue c) } e
  | none => s

/-- R104: FIRE_REQUEST. -/
def execFireRequest (c : ChannelId) (s : State) : Out := .next (s.fireRequest c)

/-! ## The guard input (R100, R101, R172) -/

/-- R172: the number of channels whose pulse an opening of the guard cuts short. -/
def State.pulsing (s : State) : Nat := s.fire.channels.toList.countP Channel.isPulsing

/-- R100: the fire sequencer at the guard's opening. -/
def State.cutPulses (s : State) : State :=
  { s with guardOpen := true, fire.channels := s.fire.channels.map Channel.cutShort }

/-- R100, R172: the guard input opens. -/
def State.openGuard (s : State) : State :=
  let t := s.cutPulses.lineFault .guardTrip 0 0 s.pulsing
  t.setHolds { t.holds with guardCause := true }

/-- R100: GUARD_OPEN; an input already open does not open (log entry 8). -/
def execGuardOpen (s : State) : Out := .next (if s.guardOpen then s else s.openGuard)

/-- R101: GUARD_CLOSE. -/
def execGuardClose (s : State) : Out := .next { s with guardOpen := false }

/-! ## Channel timing (R99) -/

/-- The channel a code names (R99). -/
def channelOfCode (b : Byte) : Option ChannelId := if h : b.toNat < 14 then some ⟨b.toNat, h⟩ else none

/-- R99: a timing group; none when it fails its conditions. -/
def State.applyTiming (s : State) (channel : Byte) (t : Timing) : Option State :=
  if 100 ≤ t.width then (channelOfCode channel).map fun c => s.modChannel c fun x => x.setTiming t else none

/-- R99: a group of CHANNEL_SET in its frame. -/
def channelSetApply (i : Incremental) (bs : List Byte) (s : State) : State × Incremental :=
  match bs with
  | [c, w1, w0, r1, r0] => applyOrFail (s.applyTiming c ⟨word16 w1 w0, word16 r1 r0⟩) s i
  | _ => (s, i)

/-- R99, Table 10-1: CHANNEL_SET as an incremental command. -/
def channelSetGrouped : Grouped := ⟨.channelSet, .noHeader, 0, 5, fun _ => .failed, channelSetApply⟩

/-- R99: CHANNEL_SET. -/
def execChannelSet (p : PortId) (st : FrameStep) (s : State) : Out := .next (groupedStep channelSetGrouped p st s)

/-- R99: a timing group arrives. -/
def execChannelSetGroup (p : PortId) (channel : Byte) (width recovery : BitVec 16) (s : State) : Out :=
  .next (groupStep channelSetGrouped p (channel :: (be16 width.toNat ++ be16 recovery.toNat)) s)

end Sys2Proof.Machine
end

