-- ==== Sys2Proof/Machine/Sorting.lean ====
section
/-! DEFINITION. Sorting, drops, misdrops, the runout, and the commands of the bins (R145 to R165). -/

namespace Sys2Proof.Machine

/-! ## Full bins (R164, R165, R176) -/

/-- R164, R176: REJECT_FULL is set when the reject bin's dropped count is at or above REJECT_MAX. -/
def State.testReject (s : State) : State :=
  if s.bnc.rejectMax ≤ s.bnc.reject.dropped then s.setHolds { s.holds with rejectFull := true } else s

/-- R165, R176: RUNOUT_FULL is set when the runout count is at or above RUNOUT_MAX. -/
def State.testRunout (s : State) : State :=
  if s.bnc.runoutMax ≤ s.bnc.runoutCount then s.setHolds { s.holds with runoutFull := true } else s

/-- R164, R176: REJECT_CLEARED. -/
def takeRejectCleared (_ : List Byte) (s : State) : State × Result :=
  (State.setHolds { s with bnc.reject.dropped := 0 } { s.holds with rejectFull := false }, .ok)

/-- R165, R176: RUNOUT_CLEARED. -/
def takeRunoutCleared (_ : List Byte) (s : State) : State × Result :=
  (State.setHolds { s with bnc.runoutCount := 0 } { s.holds with runoutFull := false }, .ok)

/-- R164: REJECT_CLEARED. -/
def execRejectCleared (p : PortId) (st : FrameStep) (s : State) : Out :=
  .next (wholeStep .rejectCleared takeRejectCleared p st s)

/-- R165: RUNOUT_CLEARED. -/
def execRunoutCleared (p : PortId) (st : FrameStep) (s : State) : Out :=
  .next (wholeStep .runoutCleared takeRunoutCleared p st s)

/-! ## Assignment (R150) -/

/-- R150, R151: the gate position of a piece in a bin. -/
def State.gatePosition (s : State) (r : PieceRec) (b : GateId) : Pos := beyond r.lead s.track.marks.gates[b]

/-- R151: the window end of a piece in a bin. -/
def State.windowEnd (s : State) (r : PieceRec) (b : GateId) : Pos :=
  beyond r.lead (s.track.marks.gates[b] + s.bnc.dropWindow)

/-- R150 1: the gate stroke of a piece. -/
def State.gateEntry (s : State) (r : PieceRec) (b : GateId) : FireEntry :=
  ⟨s.gatePosition r b, gateChannel b, r.number, r.index, .gate⟩

/-- R147, R149, R150 2: a piece becomes RIDING with no bin, and a traced one receives UNALLOCATED. -/
def State.unallocated (s : State) (r : PieceRec) : State :=
  (s.modPiece r.number r.index fun x => { x with state := .riding }).traceEntry r.traced .unallocated 0 r.index

/-- R150 2: a gate stroke finds no schedule space. -/
def State.gateRefused (s : State) (r : PieceRec) (b : GateId) : State :=
  ((s.modPiece r.number r.index fun x => { x with state := .riding }).lineFault .scheduleFull r.number r.index
    (gateChannel b).val).traceEntry r.traced .unallocated 0 r.index

/-- R148, R150: the long-threshold test: whether a final length is short for an order. -/
def Order.isShort (o : Order) (len : Nat) : Bool := decide (len < o.longThreshold)

/-- R150 3 to 5: an order bin takes a piece on, and enters CLOSING when its committed count equals the
target. -/
def State.commitOrder (s : State) (i : BinId) (r : PieceRec) (ends : Pos) (o : Order) : State :=
  let short := o.isShort r.finalLength
  let t := s.modBin i fun x => { x with
    expected := x.expected ++ [⟨r.number, r.index, ends, short⟩]
    shortCommitted := x.shortCommitted + short.toNat }
  if (t.bin i).committed = o.target then t.enterBin i .closing else t

/-- R150 3 and 4: the reject bin takes a piece on. -/
def State.commitReject (s : State) (r : PieceRec) (ends : Pos) : State :=
  { s with bnc.reject.expected := s.bnc.reject.expected ++ [⟨r.number, r.index, ends, false⟩] }

/-- R150 3: a piece becomes ASSIGNED with a bin. -/
def State.assignPiece (s : State) (r : PieceRec) (b : GateId) : State :=
  s.modPiece r.number r.index fun x => { x with state := .assigned b }

/-- R150: a piece is assigned to an order bin of an order. -/
def State.assignOrder (s : State) (r : PieceRec) (i : BinId) (o : Order) : State :=
  match s.placeGroup [s.gateEntry r (gateOfBin i)] with
  | none => s.gateRefused r (gateOfBin i)
  | some t =>
    ((t.assignPiece r (gateOfBin i)).commitOrder i r (s.windowEnd r (gateOfBin i)) o).traceEntry r.traced .sorted
      i.val r.index

/-- The reject bin as a gated bin (R143). -/
def rejectGate : GateId := 10

/-- R150: a piece is assigned to the reject bin. -/
def State.assignReject (s : State) (r : PieceRec) : State :=
  match s.placeGroup [s.gateEntry r rejectGate] with
  | none => s.gateRefused r rejectGate
  | some t =>
    ((t.assignPiece r rejectGate).commitReject r (s.windowEnd r rejectGate)).traceEntry r.traced .sorted
      rejectGate.val r.index

/-! ## The sort decision (R147 to R149) -/

/-- R148: the mix rule. -/
def mixHolds (o : Order) (x : OrderBin) (len : Nat) : Bool :=
  !o.isShort len || decide (x.shortCommitted + 1 ≤ o.target * (100 - o.longShare) / 100)

/-- R148: a piece is eligible for an order bin bound to an order. -/
def eligible (x : OrderBin) (o : Order) (r : PieceRec) : Bool :=
  x.state == .opened && o.state == .active && inGradeSet o.gradeSet r.grade && r.profile == o.profile &&
    decide (o.bandMin ≤ r.finalLength) && decide (r.finalLength ≤ o.bandMax) && decide (x.committed < o.target) &&
    mixHolds o x r.finalLength

/-- R148: the order of a bin for which a piece is eligible. -/
def State.eligibleOrder (s : State) (r : PieceRec) (i : BinId) : Option Order :=
  (s.boundOrder i).filter fun o => eligible (s.bin i) o r

/-- R148: the eligible bins of a piece with their orders, in ascending bin number. -/
def State.eligibleBins (s : State) (r : PieceRec) : List (BinId × Order) :=
  (List.finRange 10).filterMap fun i => (s.eligibleOrder r i).map fun o => (i, o)

/-- R149: of two eligible bins, the lower-numbered first, the one chosen: the higher priority, then the
greater committed count, then the lower number. -/
def State.preferred (s : State) (x y : BinId × Order) : BinId × Order :=
  if x.2.priority < y.2.priority ∨
      (x.2.priority = y.2.priority ∧ (s.bin x.1).committed < (s.bin y.1).committed) then y
  else x

/-- R149: the bin chosen for a piece with no reason. -/
def State.chosenBin (s : State) (r : PieceRec) : Option (BinId × Order) :=
  match s.eligibleBins r with
  | [] => none
  | x :: xs => some (xs.foldl s.preferred x)

/-- R147 to R149: the sort decision of a piece. -/
def State.sortPiece (s : State) (r : PieceRec) : State :=
  if r.reason.isSome then
    if s.bnc.reject.committed < s.bnc.rejectMax then s.assignReject r else s.unallocated r
  else match s.chosenBin r with
    | some (i, o) => s.assignOrder r i o
    | none => s.unallocated r

/-- R20, R147: a piece's SORT arrival is due. Every piece reaches it ON_BELT. -/
def State.sortDue (s : State) (r : PieceRec) : Bool :=
  r.state == .onBelt && s.arrivesAt r.lead s.track.marks.sort

/-- R147: the sort arrival of a piece. -/
def State.sortArrival (s : State) (n : StripNum) (k : Nat) : State :=
  match s.piece n k with
  | some r => if s.sortDue r then s.sortPiece r else s
  | none => s

/-- R147: SORT_ARRIVAL. -/
def execSortArrival (n : StripNum) (k : Nat) (s : State) : Out := .next (s.sortArrival n k)

/-! ## Drops (R153, R154, R158) -/

/-- Raise one of eight counts by one. -/
def bump (v : Vector Nat 8) (i : Nat) : Vector Nat 8 := if h : i < 8 then v.set i (v[i] + 1) h else v

/-- R153: the grade counts after a drop. -/
def bumpGrade (v : Vector Nat 8) : Grade → Vector Nat 8
  | .commercial g => bump v g.val
  | .reject => v
  | .regrade => v

/-- R153: the place of a final length in the length histogram of an order. -/
def histogramPlace (o : Order) (len : Nat) : Nat := (len - o.bandMin) * 8 / (o.bandMax - o.bandMin + 1)

/-- R153: the bundle contents after a piece has dropped; `first` when it is the first of the bundle. -/
def Bundle.add (x : Bundle) (o : Order) (r : PieceRec) (first : Bool) : Bundle where
  totalLength := x.totalLength + r.finalLength
  totalArea := x.totalArea + r.finalLength * r.width / 400
  grades := bumpGrade x.grades r.grade
  histogram := bump x.histogram (histogramPlace o r.finalLength)
  laneA := x.laneA + (r.lane == .a).toNat
  laneB := x.laneB + (r.lane == .b).toNat
  firstStrip := if first then r.number else x.firstStrip
  lastStrip := r.number

/-- R153: an order bin after its oldest expected piece has dropped. -/
def OrderBin.drop (x : OrderBin) (o : Option Order) (r : Option PieceRec) : OrderBin :=
  { x with
    expected := x.expected.tail
    dropped := x.dropped + 1
    bundle := match o, r with
      | some o, some r => x.bundle.add o r (x.dropped == 0)
      | some _, none => x.bundle
      | none, _ => x.bundle }

/-- R26, R153: the piece that fell is removed with cause DROPPED. -/
def State.removeDropped (s : State) (r : Option PieceRec) : State :=
  match r with
  | some r => s.removeBelt (.piece r) .dropped
  | none => s

/-- R153, R158, R159: a piece drops into an order bin. -/
def State.dropOrder (s : State) (i : BinId) (e : Expected) : State :=
  let r := s.piece e.number e.index
  let counted := s.modBin i fun x => x.drop (s.boundOrder i) r
  ((counted.removeDropped r).completeBin i).settleBin i

/-- R153, R164: a piece drops into the reject bin. -/
def State.dropReject (s : State) (e : Expected) : State :=
  let counted := { s with
    bnc.reject := ⟨s.bnc.reject.dropped + 1, s.bnc.reject.expected.tail⟩ }
  (counted.removeDropped (s.piece e.number e.index)).testReject

/-- R154, R171: a STRAY_DROP: capture, FAULT event, then the STRAY cause. -/
def State.strayDrop (s : State) (b : GateId) : State :=
  let t := s.lineFault .strayDrop 0 0 b.val
  t.setHolds { t.holds with stray := true }

/-- R153, R154: a pulse on a drop eye. -/
def State.dropPulse (s : State) (b : GateId) : State :=
  match s.expected b with
  | [] => s.strayDrop b
  | e :: _ =>
    match binOfGate b with
    | some i => s.dropOrder i e
    | none => s.dropReject e

/-- R153: DROP_EYE_PULSE. -/
def execDropEyePulse (b : GateId) (s : State) : Out := .next (s.dropPulse b)

/-! ## Misdrops (R156) -/

/-- R156: a piece is a MISDROP. -/
def State.misdrop (s : State) (b : GateId) (n : StripNum) (k : Nat) : State :=
  let lowered := (s.lower b n k).modPiece n k fun x => { x with state := .riding }
  let traced := (s.piece n k).any fun r => r.traced
  (lowered.traceEntry traced .misdrop 0 k).lineFault .misdrop n k b.val

/-- R156: an expected-drop entry's window end has been reached. -/
def State.windowDue (s : State) (e : Expected) : Bool := e.windowEnd == s.track.position

/-- R156: the window end of a piece in a bin. -/
def State.windowEnds (s : State) (b : GateId) (n : StripNum) (k : Nat) : State :=
  if (s.expectedOf b n k).any s.windowDue then s.misdrop b n k else s

/-- R156: WINDOW_END. -/
def execWindowEnd (b : GateId) (n : StripNum) (k : Nat) (s : State) : Out := .next (s.windowEnds b n k)

/-! ## The runout (R165) -/

/-- R26, R165: a piece leaves at the end of the belt. -/
def State.runOut (s : State) (r : PieceRec) : State :=
  let out := s.removeBelt (.piece r) .runout
  State.testRunout { out with bnc.runoutCount := min 65535 (out.bnc.runoutCount + 1) }

/-- R20, R165: a piece's RUNOUT arrival is due. -/
def State.runoutDue (s : State) (r : PieceRec) : Bool := s.arrivesAt r.lead s.track.marks.runout

/-- R165: the runout arrival of a piece. -/
def State.runoutArrival (s : State) (n : StripNum) (k : Nat) : State :=
  match s.piece n k with
  | some r => if s.runoutDue r then s.runOut r else s
  | none => s

/-- R165: RUNOUT_ARRIVAL. -/
def execRunoutArrival (n : StripNum) (k : Nat) (s : State) : Out := .next (s.runoutArrival n k)

/-! ## The commands of the bins (R145, R163) -/

/-- R145: BIN_SERVICE off on an order bin. -/
def serviceOff (b : BinId) (s : State) : State × Result :=
  if (s.bin b).state = .free then (s.enterBin b .outOfService, .ok) else (s, .state)

/-- R145: BIN_SERVICE on on an order bin. -/
def serviceOn (b : BinId) (s : State) : State × Result :=
  if (s.bin b).state = .outOfService then ((s.enterBin b .free).runArbiter, .ok) else (s, .state)

/-- R145: BIN_SERVICE. -/
def takeBinService (ps : List Byte) (s : State) : State × Result :=
  match ps with
  | [bin, service] =>
    match binOfCode bin with
    | some b =>
      if service = 0 then serviceOff b s else if service = 1 then serviceOn b s else (s, .badField)
    | none => (s, .badField)
  | _ => (s, .length)

/-- R163: an order goes on in a cleared bin. -/
def Order.refills (o : Order) : Bool :=
  (o.state == .active || o.state == .suspended) && decide (o.labelled + o.opened < o.ordered)

/-- R163: a LABELLED bin refilled for its order. -/
def State.refill (s : State) (b : BinId) (o : Order) : State :=
  ((s.modBin b fun x => { OrderBin.powerOn with order := x.order }).enterBin b .opened).modOrder o.id fun x =>
    { x with opened := x.opened + 1 }

/-- R163: BIN_CLEARED on an order bin. -/
def clearBin (b : BinId) (s : State) : State × Result :=
  if (s.bin b).state = .labelled then
    match (s.boundOrder b).filter Order.refills with
    | some o => (s.refill b o, .ok)
    | none => (s.giveBack b 0, .ok)
  else (s, .state)

/-- R163: BIN_CLEARED. -/
def takeBinCleared (ps : List Byte) (s : State) : State × Result :=
  match ps with
  | [bin] => match binOfCode bin with
    | some b => clearBin b s
    | none => (s, .badField)
  | _ => (s, .length)

/-- R145: BIN_SERVICE. -/
def execBinService (p : PortId) (st : FrameStep) (s : State) : Out :=
  .next (wholeStep .binService takeBinService p st s)

/-- R163: BIN_CLEARED. -/
def execBinCleared (p : PortId) (st : FrameStep) (s : State) : Out :=
  .next (wholeStep .binCleared takeBinCleared p st s)

end Sys2Proof.Machine
end

