-- ==== Sys2Proof/Machine/Orders.lean ====
section
/-! DEFINITION. The order commands (R129 to R136). -/

namespace Sys2Proof.Machine

/-! ## ORDER_PUT (R130) -/

/-- R130 3: the fields of a put order lie in their ranges. -/
def Order.fieldsGood (o : Order) : Bool :=
  o.id != 0 && o.gradeSet != 0 && decide (o.profile ≤ 7) && decide (o.bandMin < o.bandMax) &&
    decide (1 ≤ o.target) && decide (o.target ≤ 999) && decide (o.longShare ≤ 100) &&
    decide (1 ≤ o.ordered) && decide (o.ordered ≤ 9999) && decide (o.priority ≤ 7) &&
    decide (1 ≤ o.maxBins) && decide (o.maxBins ≤ 4)

/-- R130 4: an order joins the tail of the book as QUEUED, and the arbiter runs. -/
def State.acceptOrder (s : State) (o : Order) : State :=
  (State.raise { s with book := s.book ++ [o] } .orderState OrderState.queued.code 0 0 o.id.toNat).runArbiter

/-- R130: ORDER_PUT of an order. -/
def putOrder (o : Order) (s : State) : State × Result :=
  if 32 ≤ s.book.length then (s, .full)
  else if (s.order o.id).isSome then (s, .duplicate)
  else if o.fieldsGood then (s.acceptOrder o, .ok)
  else (s, .badField)

/-- R130: ORDER_PUT. -/
def takeOrderPut (ps : List Byte) (s : State) : State × Result :=
  match orderOfBytes ps with
  | some o => putOrder o s
  | none => (s, .length)

/-! ## The commands that name an order (R129, R132 to R136) -/

/-- R129: the tests on an order id, and then the command's own rule. -/
def onOrder (f : Order → State → State × Result) (i : OrderId) (s : State) : State × Result :=
  if i = 0 then (s, .badField)
  else match s.order i with
    | some o => f o s
    | none => (s, .notFound)

/-- R129: a command whose one parameter is an order id. -/
def takeOrder (f : Order → State → State × Result) (ps : List Byte) (s : State) : State × Result :=
  match ps with
  | [i1, i0] => onOrder f (num16 i1 i0) s
  | _ => (s, .length)

/-- R132: ORDER_SUSPEND on an order. -/
def suspendOrder (o : Order) (s : State) : State × Result :=
  match o.state with
  | .queued | .active => (s.enterOrder o.id .suspended, .ok)
  | .suspended | .cancelling | .complete | .cancelled => (s, .state)

/-- R133: ORDER_RESUME on an order. -/
def resumeOrder (o : Order) (s : State) : State × Result :=
  if o.state = .suspended then
    ((s.enterOrder o.id (if o.bins = [] then .queued else .active)).runArbiter, .ok)
  else (s, .state)

/-- R134: ORDER_ADD of n bundles on an order. -/
def addBundles (n : Nat) (o : Order) (s : State) : State × Result :=
  if n = 0 ∨ 9999 < o.ordered + n then (s, .badField)
  else match o.state with
    | .queued | .active | .suspended =>
      ((s.modOrder o.id fun x => { x with ordered := x.ordered + n }).runArbiter, .ok)
    | .cancelling | .complete | .cancelled => (s, .state)

/-- R135: an order with bound bins enters CANCELLING, and its OPEN bins are drained. The bins drained are
those OPEN when it enters. -/
def State.cancelBound (s : State) (o : Order) : State :=
  let opened := o.bins.filter fun b => (s.bin b).state == .opened
  opened.foldl State.drainBin (s.enterOrder o.id .cancelling)

/-- R135: ORDER_CANCEL on an order. -/
def cancelOrder (o : Order) (s : State) : State × Result :=
  match o.state with
  | .queued | .active | .suspended =>
    if o.bins = [] then (s.enterOrder o.id .cancelled, .ok) else (s.cancelBound o, .ok)
  | .cancelling | .complete | .cancelled => (s, .state)

/-- R136: ORDER_RETIRE on an order. -/
def retireOrder (o : Order) (s : State) : State × Result :=
  match o.state with
  | .complete | .cancelled => ({ s with book := s.book.eraseP fun x => x.id == o.id }, .ok)
  | .queued | .active | .suspended | .cancelling => (s, .state)

/-- R134: ORDER_ADD. -/
def takeOrderAdd (ps : List Byte) (s : State) : State × Result :=
  match ps with
  | [i1, i0, n1, n0] => onOrder (addBundles (word16 n1 n0)) (num16 i1 i0) s
  | _ => (s, .length)

/-- R130: ORDER_PUT. -/
def execOrderPut (p : PortId) (st : FrameStep) (s : State) : Out := .next (wholeStep .orderPut takeOrderPut p st s)

/-- R132: ORDER_SUSPEND. -/
def execOrderSuspend (p : PortId) (st : FrameStep) (s : State) : Out :=
  .next (wholeStep .orderSuspend (takeOrder suspendOrder) p st s)

/-- R133: ORDER_RESUME. -/
def execOrderResume (p : PortId) (st : FrameStep) (s : State) : Out :=
  .next (wholeStep .orderResume (takeOrder resumeOrder) p st s)

/-- R134: ORDER_ADD. -/
def execOrderAdd (p : PortId) (st : FrameStep) (s : State) : Out := .next (wholeStep .orderAdd takeOrderAdd p st s)

/-- R135: ORDER_CANCEL. -/
def execOrderCancel (p : PortId) (st : FrameStep) (s : State) : Out :=
  .next (wholeStep .orderCancel (takeOrder cancelOrder) p st s)

/-- R136: ORDER_RETIRE. -/
def execOrderRetire (p : PortId) (st : FrameStep) (s : State) : Out :=
  .next (wholeStep .orderRetire (takeOrder retireOrder) p st s)

end Sys2Proof.Machine
end

