-- ==== Sys2Proof/Machine/Line.lean ====
section
/-! DEFINITION. The track's own commands: marks, removals, LINE_CLEAR; HOLD and RESUME; the sample interval;
BELT_RUN (R16, R18, R22 to R25, R28, R173, R174, R191). -/

namespace Sys2Proof.Machine

/-! ## MARKS_SET (R18) -/

/-- The sixteen offsets of a mark table. -/
def Marks.offsets (m : Marks) : List Nat :=
  [m.deadline, m.trim, m.endmatch, m.sort] ++ m.gates.toList ++ [m.runout]

/-- Whether a list of numbers strictly rises. -/
def rising : List Nat → Bool
  | [] => true
  | [_] => true
  | x :: y :: rest => decide (x < y) && rising (y :: rest)

/-- R18: every check on a mark table, at a MAX_STRIP and a DROP_WINDOW. -/
def Marks.passes (m : Marks) (maxStrip dropWindow : Nat) : Bool :=
  m.offsets.all (fun x => decide (x < 1048576)) && decide (maxStrip < m.deadline) && decide (m.deadline < m.trim) &&
    decide (m.trim + maxStrip ≤ m.endmatch) && decide (m.endmatch + maxStrip ≤ m.sort) &&
    rising (m.sort :: m.gates.toList) && decide (m.gates[10] + dropWindow < m.runout)

/-- R18: MARKS_SET with a mark table. -/
def setMarks (m : Marks) (s : State) : State × Result :=
  if s.allocated ≠ 0 ∨ s.beltRun = true then (s, .state)
  else if m.passes s.gauge.maxStrip s.bnc.dropWindow then ({ s with track.marks := m }, .ok)
  else (s, .badField)

/-- R18: MARKS_SET. -/
def takeMarksSet (ps : List Byte) (s : State) : State × Result :=
  match marksOfOffsets (offsetsOfBytes ps) with
  | some m => setMarks m s
  | none => (s, .length)

/-- R18: MARKS_SET. -/
def execMarksSet (p : PortId) (st : FrameStep) (s : State) : Out := .next (wholeStep .marksSet takeMarksSet p st s)

/-! ## Removals by command (R23 to R25) -/

/-- Remove transit records one by one with cause REMOVED, in the order given: the caller's is that of the list,
oldest first, which R21 leaves open (log entry 23). -/
def State.removeTransits (s : State) (rs : List StripRec) : State := rs.foldl (fun t r => t.removeTransit r .removed) s

/-- Remove belt-list records one by one with cause REMOVED, in the order given: the callers' is that of the belt
list, oldest first, which R21 leaves open (log entry 23). -/
def State.removeBelts (s : State) (xs : List BeltRec) : State := xs.foldl (fun t x => t.removeBelt x .removed) s

/-- Whether a lane queue holds a record of a number (R23). -/
def State.inLane (s : State) (n : StripNum) : Bool :=
  (s.track.queues.a ++ s.track.queues.b).any fun r => r.number == n

/-- R23: the removal of every transit and belt-list record of a number, the transit records first and each list
oldest first, an order that R21 leaves open (log entry 23). -/
def State.removeNumber (s : State) (n : StripNum) : State :=
  (s.removeTransits (s.track.transit.filter fun r => r.number == n)).removeBelts
    (s.track.belt.filter fun x => x.number == n)

/-- R23: REMOVE_STRIP of a number. -/
def removeStrip (n : StripNum) (s : State) : State × Result :=
  if s.beltRun then (s, .state)
  else if n = 0 then (s, .badField)
  else if s.inLane n then (s, .state)
  else if s.carried n then (s.removeNumber n, .ok)
  else (s, .notFound)

/-- R24: a lead position lies in the span that runs forward between two positions. -/
def inSpan (start stop lead : Pos) : Bool := decide ((lead - start).toNat ≤ (stop - start).toNat)

/-- R24: the belt-list records in a span. -/
def State.spanned (s : State) (start stop : Pos) : List BeltRec :=
  s.track.belt.filter fun x => x.lead.any (inSpan start stop)

/-- R24: REMOVE_SPAN of a span. -/
def removeSpan (start stop : Pos) (s : State) : State × Result :=
  if s.beltRun then (s, .state)
  else if s.spanned start stop = [] then (s, .notFound)
  else (s.removeBelts (s.spanned start stop), .ok)

/-- R25: REMOVE_LANE is taken in a lane's HOLD, DRAIN, TOOL_CHANGE and OFF. -/
def LaneState.mayRemove : LaneState → Bool
  | .hold | .drain | .toolChange | .off => true
  | .starting | .run | .standby | .resuming => false

/-- R25: REMOVE_LANE of a lane. -/
def removeLane (l : Lane) (s : State) : State × Result :=
  if s.beltRun then (s, .state)
  else if (s.lane l).state.mayRemove then (State.removeFronts l (s.queue l).length s, .ok)
  else (s, .state)

/-- R23: REMOVE_STRIP. -/
def takeRemoveStrip (ps : List Byte) (s : State) : State × Result :=
  match ps with
  | [n1, n0] => removeStrip (num16 n1 n0) s
  | _ => (s, .length)

/-- R24: REMOVE_SPAN. -/
def takeRemoveSpan (ps : List Byte) (s : State) : State × Result :=
  match ps with
  | [f2, f1, f0, t2, t1, t0] => removeSpan (pos24 f2 f1 f0) (pos24 t2 t1 t0) s
  | _ => (s, .length)

/-- R23: REMOVE_STRIP. -/
def execRemoveStrip (p : PortId) (st : FrameStep) (s : State) : Out :=
  .next (wholeStep .removeStrip takeRemoveStrip p st s)

/-- R24: REMOVE_SPAN. -/
def execRemoveSpan (p : PortId) (st : FrameStep) (s : State) : Out :=
  .next (wholeStep .removeSpan takeRemoveSpan p st s)

/-- R25: REMOVE_LANE. -/
def execRemoveLane (p : PortId) (st : FrameStep) (s : State) : Out :=
  .next (wholeStep .removeLane (takeLane removeLane) p st s)

/-! ## LINE_CLEAR (R28, R54, R63, R109, R166, R196) -/

/-- R28: the track without its records. -/
def Track.cleared (t : Track) : Track := { t with queues := ⟨[], []⟩, transit := [], belt := [] }

/-- R63: the entry gauge at LINE_CLEAR. -/
def Gauge.cleared (g : Gauge) : Gauge := { g with untracked := g.untracked || g.eye != .clear }

/-- R196: the audit unit at LINE_CLEAR. -/
def Audit.cleared (a : Audit) : Audit :=
  if a.trace = .inProgress then
    { a with trace := .none, strip := 0, lane := .a, truncated := false, entries := [] }
  else a

/-- R166: an order bin's expected-drop list emptied. -/
def OrderBin.emptied (x : OrderBin) : OrderBin :=
  { x with expected := [], shortCommitted := x.shortCommitted - x.expected.countP Expected.short }

/-- R166: every expected-drop list emptied. -/
def Bins.emptied (c : Bins) : Bins :=
  { c with bins := c.bins.map OrderBin.emptied, reject := ⟨c.reject.dropped, []⟩ }

/-- R28: what LINE_CLEAR does to each block, before the bins are settled. -/
def State.emptied (s : State) : State :=
  { s with
    track := s.track.cleared
    merge.passedOver := ⟨false, false⟩
    gauge := s.gauge.cleared
    fire.schedule := []
    bnc := s.bnc.emptied
    audit := s.audit.cleared }

/-- R166: the order bins are taken in ascending bin number. -/
def State.reopenAll (s : State) : State := (List.finRange 10).foldl State.reopenBin s

/-- R28: LINE_CLEAR; its one LINE_CLEARED event carries the number of records removed. -/
def State.lineClear (s : State) : State := s.emptied.reopenAll.raise .lineCleared 0 0 0 s.allocated

/-- R28: a lane's state lets LINE_CLEAR be taken. -/
def LaneState.mayClear : LaneState → Bool
  | .off | .hold => true
  | .starting | .run | .standby | .resuming | .drain | .toolChange => false

/-- R28: LINE_CLEAR. -/
def takeLineClear (_ : List Byte) (s : State) : State × Result :=
  if s.beltRun then (s, .state)
  else if (s.lane .a).state.mayClear && (s.lane .b).state.mayClear then (s.lineClear, .ok)
  else (s, .state)

/-- R28: LINE_CLEAR. -/
def execLineClear (p : PortId) (st : FrameStep) (s : State) : Out := .next (wholeStep .lineClear takeLineClear p st s)

/-! ## HOLD and RESUME (R173, R174) -/

/-- R173: HOLD. -/
def takeHold (_ : List Byte) (s : State) : State × Result := (s.setHolds { s.holds with operator := true }, .ok)

/-- R174: the causes after RESUME. -/
def Holds.resumed (h : Holds) (guardOpen : Bool) : Holds :=
  { h with guardCause := h.guardCause && guardOpen, operator := false, phantom := false, stray := false }

/-- R174: RESUME. -/
def takeResume (_ : List Byte) (s : State) : State × Result := (s.setHolds (s.holds.resumed s.guardOpen), .ok)

/-- R173: HOLD. -/
def execHold (p : PortId) (st : FrameStep) (s : State) : Out := .next (wholeStep .hold takeHold p st s)

/-- R174: RESUME. -/
def execResume (p : PortId) (st : FrameStep) (s : State) : Out := .next (wholeStep .resume takeResume p st s)

/-! ## The sample interval and BELT_RUN (R16, R191) -/

/-- R191: SAMPLE_SET. -/
def takeSampleSet (ps : List Byte) (s : State) : State × Result :=
  match ps with
  | [v1, v0] =>
    if word16 v1 v0 ≤ 4096 then ({ s with audit.interval := word16 v1 v0, audit.counter := 0 }, .ok)
    else (s, .badField)
  | _ => (s, .length)

/-- R191: SAMPLE_SET. -/
def execSampleSet (p : PortId) (st : FrameStep) (s : State) : Out := .next (wholeStep .sampleSet takeSampleSet p st s)

/-- R16: BELT_RUN_CHANGE. -/
def execBeltRunChange (active : Bool) (s : State) : Out := .next { s with beltRun := active }

end Sys2Proof.Machine
end

