-- ==== Sys2Proof/Machine/Limits.lean ====
section
/-! DEFINITION. LIMITS_SET: each limit group examined and applied by the rule of the block that holds the
limit (R19, R60, R61, R70, R87, R111, R146, R190). -/

namespace Sys2Proof.Machine

/-- R60: MERGE_POLICY. -/
def State.setPolicy (s : State) (v : Nat) : Option State :=
  (MergePolicy.ofCode v).map fun m => State.arbitrate { s with merge.policy := m }

/-- R56, R60: MERGE_GAP. A lower gap that the belt has already reached sets the gap-open flag. -/
def State.setGap (s : State) (v : Nat) : Option State :=
  if v ≤ 4000 then
    let opens := decide (v < s.merge.mergeGap) && s.gapReached v
    some (State.arbitrate { s with merge.mergeGap := v, merge.gapOpen := s.merge.gapOpen || opens })
  else none

/-- R61: TRANSIT_MAX, and the test of the transit timeout with it. -/
def State.setTransitMax (s : State) (v : Nat) : Option State :=
  if 100 ≤ v ∧ v ≤ 60000 then some (State.testTransit { s with merge.transitMax := v }) else none

/-- R70: MIN_STRIP. -/
def State.setMinStrip (s : State) (v : Nat) : Option State :=
  if 200 ≤ v ∧ v ≤ 20000 ∧ v < s.gauge.maxStrip then some { s with gauge.minStrip := v } else none

/-- R19: the relations of R18 that concern MAX_STRIP. -/
def Marks.allowStrip (m : Marks) (v : Nat) : Bool :=
  decide (v < m.deadline) && decide (m.trim + v ≤ m.endmatch) && decide (m.endmatch + v ≤ m.sort)

/-- R69, R70: MAX_STRIP, and the over-length cut-off with it. -/
def State.setMaxStrip (s : State) (v : Nat) : Option State :=
  if 400 ≤ v ∧ v ≤ 24000 ∧ s.gauge.minStrip < v ∧ s.track.marks.allowStrip v = true then
    some (State.testCutOff { s with gauge.maxStrip := v })
  else none

/-- R87: SEG_MIN. -/
def State.setSegMin (s : State) (v : Nat) : Option State :=
  if 200 ≤ v ∧ v ≤ 8000 then some { s with grading.segMin := v } else none

/-- R87: WIDTH_TOL. -/
def State.setWidthTol (s : State) (v : Nat) : Option State :=
  if v ≤ 500 then some { s with grading.widthTol := v } else none

/-- R87: THICK_TOL. -/
def State.setThickTol (s : State) (v : Nat) : Option State :=
  if v ≤ 500 then some { s with grading.thickTol := v } else none

/-- R87: MOIST_MIN. -/
def State.setMoistMin (s : State) (v : Nat) : Option State :=
  if v ≤ 1000 ∧ v ≤ s.grading.moistMax then some { s with grading.moistMin := v } else none

/-- R87: MOIST_MAX. -/
def State.setMoistMax (s : State) (v : Nat) : Option State :=
  if v ≤ 1000 ∧ s.grading.moistMin ≤ v then some { s with grading.moistMax := v } else none

/-- R111: EM_TRIM, while the schedule holds no end-match entry. -/
def State.setEmTrim (s : State) (v : Nat) : Option State :=
  if v ≤ 200 ∧ s.fire.schedule.any FireEntry.endMatch = false then some { s with cut.emTrim := v } else none

/-- R111: EM_MIN. -/
def State.setEmMin (s : State) (v : Nat) : Option State :=
  if 200 ≤ v ∧ v ≤ 8000 then some { s with cut.emMin := v } else none

/-- R19, R146: DROP_WINDOW. -/
def State.setDropWindow (s : State) (v : Nat) : Option State :=
  if 100 ≤ v ∧ v ≤ 8000 ∧ s.track.marks.gates[10] + v < s.track.marks.runout then
    some { s with bnc.dropWindow := v }
  else none

/-- R146, R164: REJECT_MAX, tested against the dropped count. -/
def State.setRejectMax (s : State) (v : Nat) : Option State :=
  if 1 ≤ v ∧ v ≤ 2000 then some (State.testReject { s with bnc.rejectMax := v }) else none

/-- R146, R165: RUNOUT_MAX, tested against the runout count. -/
def State.setRunoutMax (s : State) (v : Nat) : Option State :=
  if 1 ≤ v ∧ v ≤ 500 then some (State.testRunout { s with bnc.runoutMax := v }) else none

/-- R190, Table 10-6: a limit group; none when it fails its conditions or names no limit. -/
def State.applyLimit (s : State) (ident v : Nat) : Option State :=
  match ident with
  | 0 => s.setPolicy v
  | 1 => s.setGap v
  | 2 => s.setTransitMax v
  | 3 => s.setMinStrip v
  | 4 => s.setMaxStrip v
  | 5 => s.setSegMin v
  | 6 => s.setWidthTol v
  | 7 => s.setThickTol v
  | 8 => s.setMoistMin v
  | 9 => s.setMoistMax v
  | 10 => s.setEmTrim v
  | 11 => s.setEmMin v
  | 12 => s.setDropWindow v
  | 13 => s.setRejectMax v
  | 14 => s.setRunoutMax v
  | _ => none

/-- R190: a group of LIMITS_SET in its frame. -/
def limitsApply (i : Incremental) (bs : List Byte) (s : State) : State × Incremental :=
  match bs with
  | [ident, v1, v0] => applyOrFail (s.applyLimit ident.toNat (word16 v1 v0)) s i
  | _ => (s, i)

/-- R190, Table 10-1: LIMITS_SET as an incremental command. -/
def limitsGrouped : Grouped := ⟨.limitsSet, .noHeader, 0, 3, fun _ => .failed, limitsApply⟩

/-- R190: LIMITS_SET. -/
def execLimitsSet (p : PortId) (st : FrameStep) (s : State) : Out := .next (groupedStep limitsGrouped p st s)

/-- R190: a limit group arrives. -/
def execLimitsSetGroup (p : PortId) (ident : Byte) (value : BitVec 16) (s : State) : Out :=
  .next (groupStep limitsGrouped p (limitBytes ident value) s)

end Sys2Proof.Machine
end

