-- ==== Sys2Proof/Machine/Encoder.lean ====
section
/-! DEFINITION. The belt encoder, and the events that are due: those of a belt position, settled before the
belt advances again, and those of time (R14, R15, R20, R104; log entries 1, 3 and 4). -/

namespace Sys2Proof.Machine

/-- An event that has come due, by belt position or by time. -/
inductive Due
  | deadline (n : StripNum)
  | trim (n : StripNum)
  | sort (n : StripNum) (k : Nat)
  | runout (n : StripNum) (k : Nat)
  | fire (c : ChannelId)
  | transit
  | gap
  | cutOff
  | window (b : GateId) (n : StripNum) (k : Nat)
  | delay (l : Lane)
  | idle (l : Lane)
  | releaseEnd (l : Lane)
  | outfeedEnd (l : Lane)
  | pulseEnd (c : ChannelId)
  | recoveryEnd (c : ChannelId)
deriving DecidableEq, Repr

/-- The event happens. A lane's delay timer that runs out takes it into RUN (R34), its idle timer into STANDBY
(R39); a channel's pulse ends in its recovery or in IDLE, and its recovery in IDLE (R96, R98). -/
def State.takeDue (s : State) : Due → State
  | .deadline n => s.deadlineArrival n
  | .trim n => s.trimArrival n
  | .sort n k => s.sortArrival n k
  | .runout n k => s.runoutArrival n k
  | .fire c => s.fireRequest c
  | .transit => s.testTransit
  | .gap => if s.gapDue then s.openGap else s
  | .cutOff => s.testCutOff
  | .window b n k => s.windowEnds b n k
  | .delay l => s.enterRun l
  | .idle l => s.enterLane l .standby
  | .releaseEnd l => s.releaseEnds l
  | .outfeedEnd l => s.outfeedEnds l
  | .pulseEnd c => s.modChannel c Channel.endPulse
  | .recoveryEnd c => s.modChannel c Channel.toIdle

/-! ## What is due at the belt position (R14, R20, R104) -/

/-- The deadline and trim arrivals due. -/
def State.dueStrips (s : State) : List Due :=
  ((s.beltStrips.filter s.deadlineDue).map fun r => .deadline r.number) ++
    ((s.beltStrips.filter fun r => s.trimDue r && r.plan.isSome).map fun r => .trim r.number)

/-- The sort and runout arrivals due. -/
def State.duePieces (s : State) : List Due :=
  ((s.pieces.filter s.sortDue).map fun r => .sort r.number r.index) ++
    ((s.pieces.filter s.runoutDue).map fun r => .runout r.number r.index)

/-- The fire requests due. -/
def State.dueFires (s : State) : List Due :=
  ((List.finRange 14).filter fun c => s.fire.schedule.any (s.entryDue c)).map Due.fire

/-- The window ends due. -/
def State.dueWindows (s : State) : List Due :=
  (List.finRange 11).flatMap fun b =>
    ((s.expected b).filter s.windowDue).map fun e => Due.window b e.number e.index

/-- The transit timeout, the end of the merge gap and the over-length cut-off, when due. -/
def State.dueOthers (s : State) : List Due :=
  (if s.track.transit.head?.any s.transitDue then [.transit] else []) ++
    (if s.gapDue then [.gap] else []) ++ (if s.cutOffDue.isSome then [.cutOff] else [])

/-- Every event due at the belt position. -/
def State.dueHere (s : State) : List Due :=
  s.dueStrips ++ s.duePieces ++ s.dueFires ++ s.dueWindows ++ s.dueOthers

/-! ## What is due by time (R32, R96) -/

/-- The run-outs of a lane's timers that are due. -/
def State.dueLane (s : State) (l : Lane) : List Due :=
  (if (s.lane l).delay = some 0 then [.delay l] else []) ++ (if (s.lane l).idle = some 0 then [.idle l] else []) ++
    (if (s.lane l).releaseTimer = some 0 then [.releaseEnd l] else []) ++
    (if (s.lane l).outfeedTimer = some 0 then [.outfeedEnd l] else [])

/-- The end of a channel's pulse or recovery that is due. -/
def State.dueChannel (s : State) (c : ChannelId) : List Due :=
  match (s.channel c).state with
  | .idle => []
  | .pulsing left => if left = 0 then [.pulseEnd c] else []
  | .recovering left => if left = 0 then [.recoveryEnd c] else []

/-- Every event due by time. -/
def State.dueNow (s : State) : List Due :=
  s.dueLane .a ++ s.dueLane .b ++ (List.finRange 14).flatMap s.dueChannel

/-- Every event due, by belt position or by time. -/
def State.dueAll (s : State) : List Due := s.dueHere ++ s.dueNow

/-! ## Taking what is due (R20, R104; log entries 3 and 4) -/

/-- Take one of the events due: the only one, or any one of several, a free choice (log entry 4). -/
def State.takeOne (s : State) (d : Due) (ds : List Due) : State :=
  if ds = [] then s.takeDue d
  else
    State.takeDue { s with choices := s.choices + 1 }
      (((d :: ds)[Config.duePick s.choices % (ds.length + 1)]?).getD d)

/-- Take the events due at the belt position one after another, at most `fuel` of them. -/
def State.settleWhile : Nat → State → State
  | 0, s => s
  | fuel + 1, s =>
    match s.dueHere with
    | [] => s
    | d :: ds => settleWhile fuel (s.takeOne d ds)

/-- More events than can be due at one belt position: one for each record, entry and expected piece, and the
three others. -/
def State.dueBound (s : State) : Nat :=
  s.fire.schedule.length + 2 * s.allocated + ((List.finRange 11).map fun b => (s.expected b).length).sum + 3

/-- Every event due at the belt position is taken (log entry 3). -/
def State.settle (s : State) : State := s.settleWhile s.dueBound

/-! ## The encoder (R14, R15, R65) -/

/-- R14, R65: a belt advance, at which a held trail edge is taken as the object's end. -/
def State.advance (s : State) : State :=
  let t := { s with track.position := s.track.position + 1 }
  match s.gauge.eye with
  | .trailHeld => t.objectEnds
  | .clear => t
  | .covered => t

/-- R14: a forward count pays off backlash, or advances the belt once what is due has been taken. -/
def State.forward (s : State) : State :=
  if 0 < s.track.backlash then { s with track.backlash := s.track.backlash - 1 } else s.settle.advance

/-- R15: a reverse count. -/
def State.reverse (s : State) : State := { s with track.backlash := min 65535 (s.track.backlash + 1) }

/-- R14: ENCODER_FORWARD_COUNT. -/
def execEncoderForwardCount (s : State) : Out := .next s.forward

/-- R15: ENCODER_REVERSE_COUNT. -/
def execEncoderReverseCount (s : State) : Out := .next s.reverse

end Sys2Proof.Machine
end

