-- ==== Sys2Proof/Machine/Timers.lean ====
section
/-! DEFINITION. The passing of time, in which every event that is due happens at its own tick, and the run-outs
of the lane timers and of the fire channels' pulses and recoveries (R32, R34, R38, R39, R44, R96, R98; log entries
2 and 5). -/

namespace Sys2Proof.Machine

/-! ## Time passes (R32, R96) -/

/-- The milliseconds that a lane's running timers still have to go. -/
def LaneCtl.rests (c : LaneCtl) : List Nat :=
  c.delay.toList ++ c.idle.toList ++ c.releaseTimer.toList ++ c.outfeedTimer.toList

/-- The microseconds that a channel's pulse or recovery still has to go. -/
def ChannelState.rest : ChannelState → List Nat
  | .idle => []
  | .pulsing left => [left]
  | .recovering left => [left]

/-- The microseconds to each run-out of a lane timer, pulse or recovery that is running. -/
def State.rests (s : State) : List Nat :=
  ((s.lane .a).rests ++ (s.lane .b).rests).map s.untilTick ++
    (List.finRange 14).flatMap fun c => (s.channel c).state.rest

/-- So many microseconds, or those to the next run-out when that is nearer. -/
def State.stretch (s : State) (us : Nat) : Nat := s.rests.foldl min us

/-- Time passes from tick to tick, in at most `fuel` turns: an event that is due happens, and while none is,
time passes to the next run-out or to the end. -/
def State.elapseWhile : Nat → Nat → State → State
  | 0, us, s => s.countDown us
  | fuel + 1, us, s =>
    if us = 0 then s
    else match s.dueAll with
      | d :: ds => elapseWhile fuel us (s.takeOne d ds)
      | [] => elapseWhile fuel (us - s.stretch us) (s.countDown (s.stretch us))

/-- R32, R96: so many microseconds pass. Whatever is due happens before time goes on: what is due at the start,
and each run-out on the way at its own tick. What falls due at the last tick is due after it (log entry 5). The
turns allowed are more than a tick's: a lawful state has fewer than 512 records, entries, expected pieces and
timers that can be due at one tick. -/
def State.elapse (s : State) (us : Nat) : State := s.elapseWhile (512 * (us + 1)) us

/-! ## The run-outs -/

/-- Time passes to a run-out, and it happens, unless its timer has been stopped on the way (log entry 5). -/
def State.elapseTo (s : State) (us : Nat) (d : Due) : State :=
  let t := s.elapse us
  if d ∈ t.dueNow then t.takeDue d else t

/-- R32: a run-out of a lane timer, at its tick; a timer that is stopped has none (log entry 5). -/
def State.timerRunsOut (s : State) (timer : Option Nat) (d : Due) : State :=
  match timer with
  | none => s
  | some ms => s.elapseTo (s.untilTick ms) d

/-- R34: DELAY_TIMER_RUN_OUT. -/
def execDelayTimerRunOut (l : Lane) (s : State) : Out := .next (s.timerRunsOut (s.lane l).delay (.delay l))

/-- R39: IDLE_TIMER_RUN_OUT. -/
def execIdleTimerRunOut (l : Lane) (s : State) : Out := .next (s.timerRunsOut (s.lane l).idle (.idle l))

/-- R38: RELEASE_PULSE_END. -/
def execReleasePulseEnd (l : Lane) (s : State) : Out :=
  .next (s.timerRunsOut (s.lane l).releaseTimer (.releaseEnd l))

/-- R44: OUTFEED_PULSE_END. -/
def execOutfeedPulseEnd (l : Lane) (s : State) : Out :=
  .next (s.timerRunsOut (s.lane l).outfeedTimer (.outfeedEnd l))

/-- R96: FIRE_PULSE_END; a channel in another state has no pulse to end (log entry 5). -/
def execFirePulseEnd (c : ChannelId) (s : State) : Out :=
  match (s.channel c).state with
  | .pulsing left => .next (s.elapseTo left (.pulseEnd c))
  | .idle => .next s
  | .recovering _ => .next s

/-- R96, R98: FIRE_RECOVERY_END; a channel in another state has no recovery to end (log entry 5). -/
def execFireRecoveryEnd (c : ChannelId) (s : State) : Out :=
  match (s.channel c).state with
  | .recovering left => .next (s.elapseTo left (.recoveryEnd c))
  | .idle => .next s
  | .pulsing _ => .next s

end Sys2Proof.Machine
end

