-- ==== Sys2Proof/Machine/Reads.lean ====
section
/-! DEFINITION. The read commands and the releases of what they hand over; ROLE_SET; breaks and unlisted
codes (R29, R53, R79, R110, R137, R162, R167, R178 to R189, R195, R197, Tables 10-4, 10-8 to 10-12). -/

namespace Sys2Proof.Machine

/-! ## STATUS (R189, Table 10-11) -/

/-- Table 10-11. -/
def State.statusResponse (s : State) (p : PortId) : List Byte :=
  be8 (s.port p).role.code ++ be8 (s.port p).queue.length ++ flagByte (s.port p).overflow ++ be8 s.holds.flags ++
    be8 (s.lane .a).state.code ++ be8 (s.lane .b).state.code ++ flagByte s.beltRun ++ be8 s.freeRecords ++
    be8 s.uncutStrips ++ be8 s.fire.schedule.length ++ be8 s.grading.active.code ++ be8 s.grading.mode.code ++
    be8 s.labelsHeld

/-- R189: STATUS, at its command byte. -/
def answerStatus (p : PortId) (_ : List Byte) (s : State) : Answer := .given (s.statusResponse p) (.flag false)

/-- R189: STATUS. -/
def execStatus (p : PortId) (st : FrameStep) (s : State) : Out := .next (readStep .status answerStatus p st s)

/-- Whether a read hands over the overflow flag. -/
def Handover.isFlag : Handover → Bool
  | .flag _ => true
  | .nothing | .events _ | .label _ _ | .trace | .fault => false

/-- R189: OVERFLOW_FLAG_RELEASE. -/
def execOverflowFlagRelease (p : PortId) (s : State) : Out := .next (releaseStep Handover.isFlag p s)

/-! ## READ_EVENTS (R188, Table 10-4) -/

/-- Table 10-4. -/
def Event.bytes (e : Event) : List Byte :=
  be8 e.kind.code ++ be8 e.detail ++ be16 e.time.toNat ++ be24 e.position.toNat ++ be16 e.number.toNat ++
    be8 e.index ++ be16 e.subject

/-- R188: the response to READ_EVENTS with a count from 1 to 32. -/
def Port.eventsResponse (q : Port) (n : Nat) : List Byte :=
  be8 (min n q.queue.length) ++ (q.queue.take n).flatMap Event.bytes

/-- R188: READ_EVENTS, at its count byte. -/
def answerReadEvents (p : PortId) (ps : List Byte) (s : State) : Answer :=
  match ps with
  | [n] =>
    if 1 ≤ n.toNat ∧ n.toNat ≤ 32 then .given ((s.port p).eventsResponse n.toNat) (.events false)
    else .refuse .badField
  | _ => .refuse .length

/-- R188: READ_EVENTS. -/
def execReadEvents (p : PortId) (st : FrameStep) (s : State) : Out :=
  .next (readStep .readEvents answerReadEvents p st s)

/-- Whether a read hands over event records. -/
def Handover.isEvents : Handover → Bool
  | .events _ => true
  | .nothing | .flag _ | .label _ _ | .trace | .fault => false

/-- R188: EVENT_RECORD_RELEASE. -/
def execEventRecordRelease (p : PortId) (s : State) : Out := .next (releaseStep Handover.isEvents p s)

/-! ## ROLE_SET (R184) -/

/-- R188: a READ_EVENTS response in progress notes that its records have been discarded. -/
def Handover.discard : Handover → Handover
  | .events _ => .events true
  | .nothing => .nothing
  | .flag lost => .flag lost
  | .label slot serial => .label slot serial
  | .trace => .trace
  | .fault => .fault

/-- R188: what ROLE_SET on a port does to a frame in progress there. -/
def Frame.discard (f : Frame) : Frame :=
  match f.phase with
  | .answered a => { f with phase := .answered { a with hand := a.hand.discard } }
  | .refused _ | .whole _ | .incremental _ | .reading _ => f

/-- R184: a port takes a role, and its event queue is emptied. -/
def Port.assign (q : Port) (r : Role) : Port :=
  { q with role := r, queue := [], frame := q.frame.map Frame.discard }

/-- R184: whether another port holds a role. -/
def State.roleTaken (s : State) (p : PortId) (r : Role) : Bool :=
  (List.finRange 4).any fun x => x != p && (s.port x).role == r

/-- R184: ROLE_SET of a port and a role. -/
def setRole (p : PortId) (r : Role) (s : State) : State × Result :=
  if p = 0 ∨ r = .supervisor then (s, .badField)
  else if r ≠ .none ∧ s.roleTaken p r = true then (s, .roleTaken)
  else (s.modPort p fun q => q.assign r, .ok)

/-- The port a number names (R184). -/
def portOfCode (b : Byte) : Option PortId := if h : b.toNat < 4 then some ⟨b.toNat, h⟩ else none

/-- R184: ROLE_SET. -/
def takeRoleSet (ps : List Byte) (s : State) : State × Result :=
  match ps with
  | [port, role] =>
    match portOfCode port, Role.ofCode role with
    | some p, some r => setRole p r s
    | some _, none => (s, .badField)
    | none, _ => (s, .badField)
  | _ => (s, .length)

/-- R184: ROLE_SET. -/
def execRoleSet (p : PortId) (st : FrameStep) (s : State) : Out := .next (wholeStep .roleSet takeRoleSet p st s)

/-! ## TAKE_LABEL (R162, Table 10-8) -/

/-- Eight counts of two bytes each. -/
def countBytes (v : Vector Nat 8) : List Byte := v.toList.flatMap be16

/-- Table 10-8, bytes 11 to 58. -/
def Bundle.bytes (x : Bundle) : List Byte :=
  be32 x.totalLength ++ be32 x.totalArea ++ countBytes x.grades ++ countBytes x.histogram ++ be16 x.laneA ++
    be16 x.laneB ++ be16 x.firstStrip.toNat ++ be16 x.lastStrip.toNat

/-- Table 10-8. -/
def Label.bytes (x : Label) : List Byte :=
  be32 x.serial.toNat ++ be16 x.order.toNat ++ be8 x.bin.val ++ flagByte x.isPartial ++ be8 x.profile ++
    be16 x.pieces ++ x.bundle.bytes

/-- R162: TAKE_LABEL, at its command byte. -/
def answerTakeLabel (_ : PortId) (_ : List Byte) (s : State) : Answer :=
  match s.bnc.slots[s.bnc.take] with
  | some x => .given x.bytes (.label s.bnc.take x.serial)
  | none => .refuse .notFound

/-- R162: TAKE_LABEL. -/
def execTakeLabel (p : PortId) (st : FrameStep) (s : State) : Out := .next (readStep .takeLabel answerTakeLabel p st s)

/-- Whether a read hands over a label. -/
def Handover.isLabel : Handover → Bool
  | .label _ _ => true
  | .nothing | .flag _ | .events _ | .trace | .fault => false

/-- R162: LABEL_RELEASE. -/
def execLabelRelease (p : PortId) (s : State) : Out := .next (releaseStep Handover.isLabel p s)

/-! ## TRACE_READ (R195, Table 10-9) -/

/-- Table 10-9, one entry. -/
def TraceEntry.bytes (e : TraceEntry) : List Byte :=
  be8 e.kind.code ++ be8 e.detail ++ be8 e.index ++ be24 e.position.toNat ++ be16 e.time.toNat

/-- Table 10-9. -/
def Audit.traceBytes (a : Audit) : List Byte :=
  be16 a.strip.toNat ++ be8 (laneCode a.lane) ++ be8 a.entries.length ++ flagByte a.truncated ++
    a.entries.flatMap TraceEntry.bytes

/-- R195: TRACE_READ, at its command byte. -/
def answerTraceRead (_ : PortId) (_ : List Byte) (s : State) : Answer :=
  match s.audit.trace with
  | .held => .given s.audit.traceBytes .trace
  | .none => .refuse .notYet
  | .inProgress => .refuse .notYet

/-- R195: TRACE_READ. -/
def execTraceRead (p : PortId) (st : FrameStep) (s : State) : Out := .next (readStep .traceRead answerTraceRead p st s)

/-- Whether a read hands over a trace. -/
def Handover.isTrace : Handover → Bool
  | .trace => true
  | .nothing | .flag _ | .events _ | .label _ _ | .fault => false

/-- R195: TRACE_RELEASE. -/
def execTraceRelease (p : PortId) (s : State) : Out := .next (releaseStep Handover.isTrace p s)

/-! ## FAULT_READ (R197, Table 10-10) -/

/-- Table 10-10. -/
def FaultRec.bytes (f : FaultRec) : List Byte :=
  be8 f.kind.code ++ be16 f.number.toNat ++ be8 f.index ++ be16 f.subject ++ be24 f.position.toNat ++
    be16 f.time.toNat

/-- R197: FAULT_READ, at its command byte. -/
def answerFaultRead (_ : PortId) (_ : List Byte) (s : State) : Answer :=
  match s.audit.fault with
  | some f => .given f.bytes .fault
  | none => .refuse .notFound

/-- R197: FAULT_READ. -/
def execFaultRead (p : PortId) (st : FrameStep) (s : State) : Out := .next (readStep .faultRead answerFaultRead p st s)

/-- Whether a read hands over the fault record. -/
def Handover.isFault : Handover → Bool
  | .fault => true
  | .nothing | .flag _ | .events _ | .label _ _ | .trace => false

/-- R197: FAULT_RECORD_RELEASE. -/
def execFaultRecordRelease (p : PortId) (s : State) : Out := .next (releaseStep Handover.isFault p s)

/-! ## STRIP_READ (R29, Table 10-12) -/

/-- A segment place (Table 10-7). -/
def Segment.bytes (g : Segment) : List Byte := be16 g.start ++ be16 g.stop ++ be8 g.faceClass

/-- The four segment places of a plan; unused places are zero. -/
def placeBytes (segments : List Segment) : List Byte :=
  (List.range 4).flatMap fun i => (segments.getD i ⟨0, 0, 0⟩).bytes

/-- A plan's source, override grade and reason, segment count and places; zero when absent. -/
def planBytes : Option Plan → List Byte
  | some p =>
    be8 p.source.code ++ be8 (p.override.elim 0 fun o => o.grade.code) ++
      be8 (p.override.elim 0 fun o => o.reason.code) ++ be8 p.segments.length ++ placeBytes p.segments
  | none => be8 0 ++ be8 0 ++ be8 0 ++ be8 0 ++ placeBytes []

/-- Table 10-12, a strip record. -/
def StripRec.bytes (r : StripRec) : List Byte :=
  be8 0 ++ be8 (laneCode r.lane) ++ be8 r.state.code ++ be24 (r.grantPos.getD 0).toNat ++
    be24 (r.lead.getD 0).toNat ++ be16 (r.length.getD 0) ++ be8 (stripFlags r) ++ be16 (r.width.getD 0) ++
    be16 (r.thickness.getD 0) ++ be16 (r.moisture.getD 0) ++ be8 r.edition.code ++ planBytes r.plan

/-- Table 10-12, a piece record. -/
def PieceRec.bytes (r : PieceRec) : List Byte :=
  be8 1 ++ be8 r.index ++ be24 r.lead.toNat ++ be16 r.segLength ++ be16 r.finalLength ++ be8 r.faceClass ++
    be8 r.grade.code ++ be8 (reasonCode r.reason) ++ be8 (pieceFlags r) ++ be8 r.state.code ++
    be8 (r.state.bin.elim 0 Fin.val)

/-- R29: the pieces of a strip number, in piece index order. -/
def State.piecesNumbered (s : State) (n : StripNum) : List PieceRec :=
  (List.range 4).filterMap fun k => s.piece n k

/-- R29: STRIP_READ of a number. -/
def State.stripAnswer (s : State) (n : StripNum) : Answer :=
  if n = 0 then .refuse .badField
  else match s.strip n with
    | some r => .given (be8 1 ++ r.bytes) .nothing
    | none =>
      match s.piecesNumbered n with
      | [] => .refuse .notFound
      | q :: qs => .given (be8 (qs.length + 1) ++ (q :: qs).flatMap PieceRec.bytes) .nothing

/-- R29: STRIP_READ, at the last byte of the number. -/
def answerStripRead (_ : PortId) (ps : List Byte) (s : State) : Answer :=
  match ps with
  | [n1, n0] => s.stripAnswer (num16 n1 n0)
  | _ => .refuse .length

/-- R29: STRIP_READ. -/
def execStripRead (p : PortId) (st : FrameStep) (s : State) : Out := .next (readStep .stripRead answerStripRead p st s)

/-! ## LANE_READ (R53, Table 10-12) -/

/-- A recipe, as LANE_RECIPE carries it. -/
def Recipe.bytes (r : Recipe) : List Byte :=
  be8 r.profile ++ be16 r.widthNominal ++ be16 r.thicknessNominal ++ be8 r.toolSet

/-- The six lane limits in identifier order. -/
def LaneLimits.bytes (x : LaneLimits) : List Byte :=
  be16 x.capacity ++ be16 x.startDelay ++ be16 x.resumeDelay ++ be16 x.idleTimeout ++ be16 x.releasePulse ++
    be16 x.outfeedPulse

/-- The flags of LANE_READ. -/
def State.laneFlags (s : State) (l : Lane) : Nat :=
  let c := s.lane l
  flagBits [c.blankWaiting, c.blankReady, c.spindle, c.feed, c.releaseOutput, c.outfeedOutput, s.frontAtExit l]

/-- Twelve strip numbers from the front of a queue; unused places are zero. -/
def queueBytes (q : List StripRec) : List Byte :=
  (List.range 12).flatMap fun i => be16 ((q[i]?).elim 0 fun r => r.number.toNat)

/-- Table 10-12, LANE_READ. -/
def State.laneResponse (s : State) (l : Lane) : List Byte :=
  let c := s.lane l
  be8 c.state.code ++ be8 c.target.code ++ c.current.bytes ++ flagByte c.pending.isSome ++
    (c.pending.getD ⟨0, 0, 0, 0⟩).bytes ++ c.limits.bytes ++ be8 (s.laneFlags l) ++ be8 (s.queue l).length ++
    queueBytes (s.queue l)

/-- R53: LANE_READ, at the lane code. -/
def answerLaneRead (_ : PortId) (ps : List Byte) (s : State) : Answer :=
  match ps with
  | [b] => match laneOfCode b with
    | some l => .given (s.laneResponse l) .nothing
    | none => .refuse .badField
  | _ => .refuse .length

/-- R53: LANE_READ. -/
def execLaneRead (p : PortId) (st : FrameStep) (s : State) : Out := .next (readStep .laneRead answerLaneRead p st s)

/-! ## MAP_READ (R79, Table 10-12) -/

/-- R75, R79: n entries of an edition from a place on, as the write pointer advances. -/
def Grading.entriesFrom (g : Grading) (e : Edition) (start : Nat) (n : Nat) : List Byte :=
  (List.range n).flatMap fun i => be8 (((g.edition e)[(start + i) % 128]?).getD .regrade).code

/-- Table 10-12, MAP_READ. -/
def State.mapResponse (s : State) (e : Edition) (start n : Nat) : List Byte :=
  be8 s.grading.active.code ++ be8 s.grading.mode.code ++ be8 (s.referenceCount .e0) ++
    be8 (s.referenceCount .e1) ++ s.grading.entriesFrom e start n

/-- R79: MAP_READ of an edition, a profile code, a face class and a count. -/
def State.mapAnswer (s : State) (edition : Option Edition) (profile face n : Nat) : Answer :=
  match edition with
  | some e =>
    if profile ≤ 7 ∧ face ≤ 15 ∧ 1 ≤ n ∧ n ≤ 128 then .given (s.mapResponse e (mapPlace profile face) n) .nothing
    else .refuse .badField
  | none => .refuse .badField

/-- R79: MAP_READ, at its last parameter byte. -/
def answerMapRead (_ : PortId) (ps : List Byte) (s : State) : Answer :=
  match ps with
  | [edition, profile, face, n] => s.mapAnswer (Edition.ofCode edition) profile.toNat face.toNat n.toNat
  | _ => .refuse .length

/-- R79: MAP_READ. -/
def execMapRead (p : PortId) (st : FrameStep) (s : State) : Out := .next (readStep .mapRead answerMapRead p st s)

/-! ## CHANNEL_READ (R110, Table 10-12) -/

/-- The guard's level as CHANNEL_READ sends it: which level is sent as 1 is a free value (log entry 14). -/
def State.guardLevel (s : State) : Bool := s.guardOpen == Config.guardOpenSentAsOne

/-- Table 10-12, one channel. -/
def State.channelBytes (s : State) (c : ChannelId) : List Byte :=
  let x := s.channel c
  be8 (x.state.code + 128 * (s.fireOutput c).toNat) ++ be16 x.current.width ++ be16 x.current.recovery ++
    flagByte x.pending.isSome ++ be16 (x.pending.elim 0 Timing.width) ++ be16 (x.pending.elim 0 Timing.recovery)

/-- Table 10-12, CHANNEL_READ. -/
def State.channelResponse (s : State) : List Byte :=
  flagByte s.guardLevel ++ be8 s.fire.schedule.length ++ (List.finRange 14).flatMap s.channelBytes

/-- R110: CHANNEL_READ, at its command byte. -/
def answerChannelRead (_ : PortId) (_ : List Byte) (s : State) : Answer := .given s.channelResponse .nothing

/-- R110: CHANNEL_READ. -/
def execChannelRead (p : PortId) (st : FrameStep) (s : State) : Out :=
  .next (readStep .channelRead answerChannelRead p st s)

/-! ## ORDER_READ (R137, Table 10-12) -/

/-- The fields of ORDER_PUT (Table 10-1). -/
def Order.putBytes (o : Order) : List Byte :=
  be16 o.id.toNat ++ [o.gradeSet] ++ be8 o.profile ++ be16 o.bandMin ++ be16 o.bandMax ++ be16 o.target ++
    be16 o.longThreshold ++ be8 o.longShare ++ be16 o.ordered ++ be8 o.priority ++ be8 o.maxBins

/-- Four places of bin numbers in the order of binding; unused places are zero. -/
def binPlaces (bins : List BinId) : List Byte := (List.range 4).flatMap fun i => be8 ((bins[i]?).elim 0 Fin.val)

/-- R125: an order's put sequence, counted from 1 at the head of the book. -/
def State.putSequence (s : State) (i : OrderId) : Nat := (s.book.findIdx fun o => o.id == i) + 1

/-- Table 10-12, ORDER_READ of an order. -/
def State.orderResponse (s : State) (o : Order) : List Byte :=
  o.putBytes ++ be8 (s.putSequence o.id) ++ be8 o.state.code ++ be16 o.labelled ++ be8 o.opened ++
    be8 o.bins.length ++ binPlaces o.bins ++ flagByte o.needsBin

/-- Table 10-12, ORDER_READ of the book summary. -/
def State.bookResponse (s : State) : List Byte :=
  be8 s.book.length ++ s.book.flatMap fun o => be16 o.id.toNat ++ be8 o.state.code ++ be8 o.priority

/-- R137: ORDER_READ of an order id. -/
def State.orderAnswer (s : State) (i : OrderId) : Answer :=
  if i = 0 then .given s.bookResponse .nothing
  else match s.order i with
    | some o => .given (s.orderResponse o) .nothing
    | none => .refuse .notFound

/-- R137: ORDER_READ, at the last byte of the order id. -/
def answerOrderRead (_ : PortId) (ps : List Byte) (s : State) : Answer :=
  match ps with
  | [i1, i0] => s.orderAnswer (num16 i1 i0)
  | _ => .refuse .length

/-- R137: ORDER_READ. -/
def execOrderRead (p : PortId) (st : FrameStep) (s : State) : Out := .next (readStep .orderRead answerOrderRead p st s)

/-! ## BIN_READ (R167, Table 10-12) -/

/-- Ten places of the label wait list; unused places are zero. -/
def waitPlaces (bins : List BinId) : List Byte := (List.range 10).flatMap fun i => be8 ((bins[i]?).elim 0 Fin.val)

/-- The part every BIN_READ response carries. -/
def State.labelPart (s : State) : List Byte :=
  be8 s.labelsHeld ++ be8 s.bnc.waitList.length ++ waitPlaces s.bnc.waitList ++ be32 s.bnc.serial.toNat

/-- The entries of an expected-drop list. -/
def expectedBytes (es : List Expected) : List Byte :=
  es.flatMap fun e => be16 e.number.toNat ++ be8 e.index ++ be24 e.windowEnd.toNat

/-- Table 10-12, BIN_READ of an order bin. -/
def OrderBin.bytes (x : OrderBin) : List Byte :=
  be8 x.state.code ++ be16 (x.order.elim 0 BitVec.toNat) ++ be16 x.committed ++ be16 x.shortCommitted ++
    be16 x.dropped ++ flagByte x.isPartial ++ x.bundle.bytes ++ be16 x.expected.length ++ expectedBytes x.expected

/-- Table 10-12, BIN_READ of bin 10. -/
def RejectBin.bytes (x : RejectBin) : List Byte :=
  be16 x.dropped ++ be16 x.committed ++ be16 x.expected.length ++ expectedBytes x.expected

/-- R167: BIN_READ of a bin number. -/
def State.binAnswer (s : State) (b : Byte) : Answer :=
  match binOfCode b with
  | some i => .given (s.labelPart ++ (s.bin i).bytes) .nothing
  | none =>
    if b = 10 then .given (s.labelPart ++ s.bnc.reject.bytes) .nothing
    else if b = 11 then .given (s.labelPart ++ be16 s.bnc.runoutCount) .nothing
    else .refuse .badField

/-- R167: BIN_READ, at the bin number. -/
def answerBinRead (_ : PortId) (ps : List Byte) (s : State) : Answer :=
  match ps with
  | [b] => s.binAnswer b
  | _ => .refuse .length

/-- R167: BIN_READ. -/
def execBinRead (p : PortId) (st : FrameStep) (s : State) : Out := .next (readStep .binRead answerBinRead p st s)

/-! ## Breaks and unlisted codes (R178, R180) -/

/-- R178: FRAME_BREAK. -/
def execFrameBreak (p : PortId) (s : State) : Out := .next (breakFrame p s)

/-- R180: UNKNOWN_COMMAND; a code that Table 10-1 lists is no unknown command (log entry 7). -/
def execUnknownCommand (p : PortId) (code : Byte) (st : FrameStep) (s : State) : Out :=
  .next (if listedCode code then s else unlistedStep code p st s)

end Sys2Proof.Machine
end

