-- ==== Sys2Proof/Machine/Power.lean ====
section
/-! DEFINITION. Power-on and the RESET pin (00_scope.md 1.6.6), and what the block does on its own while no
command waits (log entry 1). -/

namespace Sys2Proof.Machine

/-- 00_scope.md 1.6.6: every block at its power-on state. The commands that wait outside the part, and the
model's count of free choices, are no state of the part. -/
def State.powerUp (s : State) (levels : InputLevels) : State :=
  { State.powerOn levels with pending := s.pending, choices := s.choices }

/-- 00_scope.md 1.6.6: POWER_ON. -/
def execPowerOn (levels : InputLevels) (s : State) : Out := .next (s.powerUp levels)

/-- With no command waiting, an event that is due happens; when none is, one microsecond passes (log entry
1). -/
def State.idleStep (s : State) : State :=
  match s.dueAll with
  | d :: ds => s.takeOne d ds
  | [] => s.elapse 1

end Sys2Proof.Machine
end

