-- ==== Sys2Proof/Machine/Dispatch.lean ====
section
/-! DEFINITION. The effect of every command: one arm for each row of spec/opcode_table.json. -/

namespace Sys2Proof.Machine

/-- The effect of a command on everything but the queue of waiting commands. -/
def exec (i : Instr) (s : State) : Host.Outcome State Fault Refusal :=
  match i with
  | .powerOn levels => Sys2Proof.Machine.execPowerOn levels s
  | .frameBreak p => Sys2Proof.Machine.execFrameBreak p s
  | .unknownCommand p code st => Sys2Proof.Machine.execUnknownCommand p code st s
  | .status p st => Sys2Proof.Machine.execStatus p st s
  | .overflowFlagRelease p => Sys2Proof.Machine.execOverflowFlagRelease p s
  | .readEvents p st => Sys2Proof.Machine.execReadEvents p st s
  | .eventRecordRelease p => Sys2Proof.Machine.execEventRecordRelease p s
  | .roleSet p st => Sys2Proof.Machine.execRoleSet p st s
  | .limitsSet p st => Sys2Proof.Machine.execLimitsSet p st s
  | .limitsSetGroup p ident value => Sys2Proof.Machine.execLimitsSetGroup p ident value s
  | .marksSet p st => Sys2Proof.Machine.execMarksSet p st s
  | .hold p st => Sys2Proof.Machine.execHold p st s
  | .resume p st => Sys2Proof.Machine.execResume p st s
  | .lineClear p st => Sys2Proof.Machine.execLineClear p st s
  | .removeStrip p st => Sys2Proof.Machine.execRemoveStrip p st s
  | .removeSpan p st => Sys2Proof.Machine.execRemoveSpan p st s
  | .removeLane p st => Sys2Proof.Machine.execRemoveLane p st s
  | .rejectCleared p st => Sys2Proof.Machine.execRejectCleared p st s
  | .runoutCleared p st => Sys2Proof.Machine.execRunoutCleared p st s
  | .binService p st => Sys2Proof.Machine.execBinService p st s
  | .laneStart p st => Sys2Proof.Machine.execLaneStart p st s
  | .laneStop p st => Sys2Proof.Machine.execLaneStop p st s
  | .laneHold p st => Sys2Proof.Machine.execLaneHold p st s
  | .laneRun p st => Sys2Proof.Machine.execLaneRun p st s
  | .laneRecipe p st => Sys2Proof.Machine.execLaneRecipe p st s
  | .toolReady p st => Sys2Proof.Machine.execToolReady p st s
  | .laneConfig p st => Sys2Proof.Machine.execLaneConfig p st s
  | .laneConfigGroup p ident value => Sys2Proof.Machine.execLaneConfigGroup p ident value s
  | .channelSet p st => Sys2Proof.Machine.execChannelSet p st s
  | .channelSetGroup p channel width recovery => Sys2Proof.Machine.execChannelSetGroup p channel width recovery s
  | .mapWrite p st => Sys2Proof.Machine.execMapWrite p st s
  | .mapWriteGradeByte p grade => Sys2Proof.Machine.execMapWriteGradeByte p grade s
  | .mapCommit p st => Sys2Proof.Machine.execMapCommit p st s
  | .gradeMode p st => Sys2Proof.Machine.execGradeMode p st s
  | .verdict p st => Sys2Proof.Machine.execVerdict p st s
  | .gradeEntry p st => Sys2Proof.Machine.execGradeEntry p st s
  | .orderPut p st => Sys2Proof.Machine.execOrderPut p st s
  | .orderSuspend p st => Sys2Proof.Machine.execOrderSuspend p st s
  | .orderResume p st => Sys2Proof.Machine.execOrderResume p st s
  | .orderAdd p st => Sys2Proof.Machine.execOrderAdd p st s
  | .orderCancel p st => Sys2Proof.Machine.execOrderCancel p st s
  | .orderRetire p st => Sys2Proof.Machine.execOrderRetire p st s
  | .takeLabel p st => Sys2Proof.Machine.execTakeLabel p st s
  | .labelRelease p => Sys2Proof.Machine.execLabelRelease p s
  | .binCleared p st => Sys2Proof.Machine.execBinCleared p st s
  | .sampleSet p st => Sys2Proof.Machine.execSampleSet p st s
  | .traceRead p st => Sys2Proof.Machine.execTraceRead p st s
  | .traceRelease p => Sys2Proof.Machine.execTraceRelease p s
  | .faultRead p st => Sys2Proof.Machine.execFaultRead p st s
  | .faultRecordRelease p => Sys2Proof.Machine.execFaultRecordRelease p s
  | .stripRead p st => Sys2Proof.Machine.execStripRead p st s
  | .laneRead p st => Sys2Proof.Machine.execLaneRead p st s
  | .mapRead p st => Sys2Proof.Machine.execMapRead p st s
  | .channelRead p st => Sys2Proof.Machine.execChannelRead p st s
  | .orderRead p st => Sys2Proof.Machine.execOrderRead p st s
  | .binRead p st => Sys2Proof.Machine.execBinRead p st s
  | .blankReadyActive l => Sys2Proof.Machine.execBlankReadyActive l s
  | .blankReadyInactive l => Sys2Proof.Machine.execBlankReadyInactive l s
  | .exitEyeLeadEdge l => Sys2Proof.Machine.execExitEyeLeadEdge l s
  | .entryEyeLeadEdge => Sys2Proof.Machine.execEntryEyeLeadEdge s
  | .entryEyeTrailEdge => Sys2Proof.Machine.execEntryEyeTrailEdge s
  | .encoderForwardCount => Sys2Proof.Machine.execEncoderForwardCount s
  | .encoderReverseCount => Sys2Proof.Machine.execEncoderReverseCount s
  | .deadlineArrival n => Sys2Proof.Machine.execDeadlineArrival n s
  | .trimArrival n => Sys2Proof.Machine.execTrimArrival n s
  | .sortArrival n k => Sys2Proof.Machine.execSortArrival n k s
  | .runoutArrival n k => Sys2Proof.Machine.execRunoutArrival n k s
  | .fireRequest c => Sys2Proof.Machine.execFireRequest c s
  | .transitTimeout => Sys2Proof.Machine.execTransitTimeout s
  | .gapOpenSet => Sys2Proof.Machine.execGapOpenSet s
  | .overLengthCutOff => Sys2Proof.Machine.execOverLengthCutOff s
  | .windowEnd b n k => Sys2Proof.Machine.execWindowEnd b n k s
  | .dropEyePulse b => Sys2Proof.Machine.execDropEyePulse b s
  | .guardOpen => Sys2Proof.Machine.execGuardOpen s
  | .guardClose => Sys2Proof.Machine.execGuardClose s
  | .delayTimerRunOut l => Sys2Proof.Machine.execDelayTimerRunOut l s
  | .idleTimerRunOut l => Sys2Proof.Machine.execIdleTimerRunOut l s
  | .releasePulseEnd l => Sys2Proof.Machine.execReleasePulseEnd l s
  | .outfeedPulseEnd l => Sys2Proof.Machine.execOutfeedPulseEnd l s
  | .firePulseEnd c => Sys2Proof.Machine.execFirePulseEnd c s
  | .fireRecoveryEnd c => Sys2Proof.Machine.execFireRecoveryEnd c s
  | .beltRunChange active => Sys2Proof.Machine.execBeltRunChange active s

end Sys2Proof.Machine
end

