-- ==== Sys2Proof/WellFormed.lean ====
section
/-! DEFINITION. Which commands can reach the block: operands that name what the spec can name. exec is
defined on the others too, and changes nothing on them. -/

namespace Sys2Proof

/-- A strip number names a strip: 1 to 65535 (00_scope.md 1.6.4). -/
def namesStrip (n : StripNum) : Bool := n != 0

/-- A piece index: 0 to 3 (00_scope.md 1.6.4). -/
def isPieceIndex (k : Nat) : Bool := decide (k < 4)

/-- The checks on a command's operands. Ports, lanes, channels and bins are in range by their types. -/
def Instr.wellFormed : Instr → Bool
  | .unknownCommand _ code _ => !listedCode code
  | .deadlineArrival n => namesStrip n
  | .trimArrival n => namesStrip n
  | .sortArrival n k => namesStrip n && isPieceIndex k
  | .runoutArrival n k => namesStrip n && isPieceIndex k
  | .windowEnd _ n k => namesStrip n && isPieceIndex k
  | _ => true

end Sys2Proof
end

