-- ==== Sys2Proof/Safety.lean ====
section
/-! DEFINITION. The terms claims are made in: which block of the part a change reaches, when a port can take
a command, and what holds in every lawful state. -/

namespace Sys2Proof.Machine

/-! ## Frames -/

/-- The parts of State that a frame names. -/
inductive Block
  | track
  | lanes
  | merge
  | gauge
  | grading
  | fire
  | cut
  | book
  | bins
  | holds
  | audit
  | ports
  | guardInput
  | beltRunInput
  | time
  | choices
  | pending
deriving DecidableEq, Repr

/-- Two states agree on a block. -/
def Block.agree (s t : State) : Block → Prop
  | .track => t.track = s.track
  | .lanes => t.lanes = s.lanes
  | .merge => t.merge = s.merge
  | .gauge => t.gauge = s.gauge
  | .grading => t.grading = s.grading
  | .fire => t.fire = s.fire
  | .cut => t.cut = s.cut
  | .book => t.book = s.book
  | .bins => t.bnc = s.bnc
  | .holds => t.holds = s.holds
  | .audit => t.audit = s.audit
  | .ports => t.ports = s.ports
  | .guardInput => t.guardOpen = s.guardOpen
  | .beltRunInput => t.beltRun = s.beltRun
  | .time => t.time = s.time
  | .choices => t.choices = s.choices
  | .pending => t.pending = s.pending

/-- Every block but those listed is as it was. -/
structure State.unchangedBut (bs : List Block) (s t : State) : Prop where
  kept : ∀ b : Block, b ∉ bs → b.agree s t

/-- What the lane controllers can reach at their own events: their lanes, the lane queues and the strip
counter, the audit unit, and the queues of the ports. -/
def laneBlocks : List Block := [.track, .lanes, .audit, .ports]

/-- What a grant can reach. -/
def mergeBlocks : List Block := [.track, .lanes, .merge, .audit, .ports]

/-- What a change of the hold-cause set can reach: an empty set lets the arbiter grant. -/
def holdBlocks : List Block := [.track, .lanes, .merge, .holds, .audit, .ports]

/-- What the order book and the bin controller can reach at their own events. -/
def binBlocks : List Block := [.book, .bins, .ports]

/-- What removal of a record can reach (R21). -/
def removalBlocks : List Block := [.track, .lanes, .merge, .fire, .book, .bins, .audit, .ports, .choices]

/-- What an event that is due can reach. -/
def lineBlocks : List Block :=
  [.track, .lanes, .merge, .gauge, .fire, .book, .bins, .holds, .audit, .ports, .choices]

/-! ## Frames at a port -/

/-- A port with no frame in progress, whose role may issue a command (R180, R184). -/
def State.ready (s : State) (p : PortId) (c : Cmd) : Prop :=
  (s.port p).frame = none ∧ (s.port p).role.mayIssue c = true

/-- The command of the table that is a step of a frame of Table 10-1's command. -/
def frameInstr (c : Cmd) (p : PortId) (st : FrameStep) : Instr :=
  match c with
  | .status => .status p st
  | .readEvents => .readEvents p st
  | .roleSet => .roleSet p st
  | .limitsSet => .limitsSet p st
  | .marksSet => .marksSet p st
  | .hold => .hold p st
  | .resume => .resume p st
  | .lineClear => .lineClear p st
  | .removeStrip => .removeStrip p st
  | .removeSpan => .removeSpan p st
  | .removeLane => .removeLane p st
  | .rejectCleared => .rejectCleared p st
  | .runoutCleared => .runoutCleared p st
  | .binService => .binService p st
  | .laneStart => .laneStart p st
  | .laneStop => .laneStop p st
  | .laneHold => .laneHold p st
  | .laneRun => .laneRun p st
  | .laneRecipe => .laneRecipe p st
  | .toolReady => .toolReady p st
  | .laneConfig => .laneConfig p st
  | .channelSet => .channelSet p st
  | .mapWrite => .mapWrite p st
  | .mapCommit => .mapCommit p st
  | .gradeMode => .gradeMode p st
  | .verdict => .verdict p st
  | .gradeEntry => .gradeEntry p st
  | .orderPut => .orderPut p st
  | .orderSuspend => .orderSuspend p st
  | .orderResume => .orderResume p st
  | .orderAdd => .orderAdd p st
  | .orderCancel => .orderCancel p st
  | .orderRetire => .orderRetire p st
  | .takeLabel => .takeLabel p st
  | .binCleared => .binCleared p st
  | .sampleSet => .sampleSet p st
  | .traceRead => .traceRead p st
  | .faultRead => .faultRead p st
  | .stripRead => .stripRead p st
  | .laneRead => .laneRead p st
  | .mapRead => .mapRead p st
  | .channelRead => .channelRead p st
  | .orderRead => .orderRead p st
  | .binRead => .binRead p st

/-! ## Lawful states -/

/-- R184, R187: port 0 alone holds SUPERVISOR, no other role but NONE is held twice, and no event queue
holds more than 32 records. -/
def State.portsLawful (s : State) : Prop :=
  (s.port 0).role = .supervisor ∧
  (∀ p q : PortId, p ≠ q → (s.port p).role = (s.port q).role → (s.port p).role = .none) ∧
  ∀ p : PortId, (s.port p).queue.length ≤ 32

/-- R15, R102, R125, R165, R193: the sizes the part gives its counts and lists; and no order id stands twice in
the book. -/
def State.withinBounds (s : State) : Prop :=
  s.fire.schedule.length ≤ 64 ∧ s.track.backlash ≤ 65535 ∧ s.book.length ≤ 32 ∧ s.audit.entries.length ≤ 48 ∧
  s.bnc.runoutCount ≤ 65535 ∧ (s.book.map Order.id).Nodup

/-- R9, R10, R84: the pool holds its reserve of three free records for each uncut strip, no two strip
records carry one number, and no plan holds more than four segments. -/
def State.reserved (s : State) : Prop :=
  s.allocated + 3 * s.uncutStrips ≤ 128 ∧ (s.strips.map StripRec.number).Nodup ∧
  ∀ r ∈ s.strips, ∀ plan ∈ r.plan, plan.segments.length ≤ 4

/-- R18, R19: the relations between the station marks, MAX_STRIP and DROP_WINDOW. -/
def State.marksOrdered (s : State) : Prop := s.track.marks.passes s.gauge.maxStrip s.bnc.dropWindow = true

/-- R94, R100, R101: no channel is PULSING while the guard is open. -/
def State.guarded (s : State) : Prop := s.guardOpen = true → ∀ c : ChannelId, (s.channel c).isPulsing = false

/-- Table 2-1: the states in which a lane's queue is empty. -/
def LaneState.stopped : LaneState → Bool
  | .off | .starting | .standby | .resuming | .toolChange => true
  | .run | .hold | .drain => false

/-- R39, R41, Table 2-1: a lane's queue within its CAPACITY, empty in the states with the feed stopped and
while the idle timer runs, which it does in RUN alone. -/
def State.laneLawful (s : State) (l : Lane) : Prop :=
  (s.queue l).length ≤ (s.lane l).limits.capacity ∧
  ((s.lane l).state.stopped = true → s.queue l = []) ∧
  ((s.lane l).idle.isSome = true → (s.lane l).state = .run ∧ s.queue l = [])

/-- Both lanes are lawful. -/
def State.lanesLawful (s : State) : Prop := ∀ l : Lane, s.laneLawful l

end Sys2Proof.Machine
end

