-- ==== Sys2Proof/Certificates/Slice0/Obligations.lean ====
section
/-! DEFINITION. The statements for the provers. -/

open Sys2Proof Sys2Proof.Machine

/-! ## The machine -/

/-- A step takes the command at the front of the queue and has its effect with the queue's rest. -/
def Obligations.StepRunsTheFrontCommand : Prop :=
  ∀ (c : Instr) (rest : List Instr) (s : State),
    step { s with pending := c :: rest } = exec c { s with pending := rest }

/-- The model's choice (log entries 1 and 4): on an empty queue one event that is due happens, whichever of
several; with none due one microsecond passes. -/
def Obligations.EmptyQueueTakesWhatIsDue : Prop :=
  ∀ s : State, s.pending = [] →
    (s.dueAll = [] → step s = .next (s.elapse 1)) ∧
    (∀ d, s.dueAll = [d] → step s = .next (s.takeDue d)) ∧
    (1 < s.dueAll.length → ∃ d ∈ s.dueAll, step s = .next (State.takeDue { s with choices := s.choices + 1 } d))

/-- Every command answers a next state, and none reaches the queue of waiting commands. -/
def Obligations.CommandsLeaveTheQueueAlone : Prop :=
  ∀ (c : Instr) (s : State), ∃ t, exec c s = .next t ∧ t.pending = s.pending

/-- Reset leaves the values the chapters give, and power-on and the RESET pin return every block to them, but for what
the levels of the inputs decide. The model's choices: the levels of the inputs at reset (log entry 9), the
microseconds (log entry 2), the count of free choices (log entry 4), that the queue outside the part and that count
go on over a power-on (log entry 18), and the object start with the beam clear (log entry 25). -/
def Obligations.ResetAndPowerOn : Prop :=
  (State.reset.track = ⟨⟨[], []⟩, [], [], 0, 0, 0, ⟨8000, 12000, 20000, 28000,
      #v[30000, 32400, 34800, 37200, 39600, 42000, 44400, 46800, 49200, 51600, 54000], 58000⟩⟩ ∧
    (State.reset.freeRecords = 128 ∧ State.reset.uncutStrips = 0) ∧
    (∀ l, State.reset.lane l = ⟨.off, .noTarget, ⟨0, 0, 0, 0⟩, none, none, none, none, none,
      ⟨6, 8000, 1500, 200, 20, 20⟩, false, false⟩) ∧
    State.reset.merge = ⟨.alternate, 0, true, none, ⟨false, false⟩, 200, 4000⟩ ∧
    State.reset.gauge = ⟨.clear, false, 0, 1000, 6400⟩ ∧
    (∀ e i, (h : i < 128) → (State.reset.grading.edition e)[i] = .regrade) ∧
    (State.reset.grading.active = .e0 ∧ State.reset.grading.mode = .scanner) ∧
    (State.reset.grading.segMin = 600 ∧ State.reset.grading.widthTol = 30 ∧ State.reset.grading.thickTol = 20 ∧
      State.reset.grading.moistMin = 60 ∧ State.reset.grading.moistMax = 110) ∧
    (∀ c, State.reset.channel c = ⟨.idle, (if c.val = 0 then ⟨8000, 30000⟩ else if c.val ≤ 2 then ⟨5000, 12000⟩
      else ⟨40000, 20000⟩), none⟩) ∧
    (State.reset.fire.schedule = [] ∧ State.reset.cut = ⟨24, 1000⟩ ∧ State.reset.book = []) ∧
    (∀ b, State.reset.bin b = ⟨.free, none, 0, 0, ⟨0, 0, Vector.replicate 8 0, Vector.replicate 8 0, 0, 0, 0, 0⟩, false, []⟩) ∧
    (State.reset.bnc.reject = ⟨0, []⟩ ∧ State.reset.bnc.runoutCount = 0 ∧ State.reset.bnc.waitList = [] ∧
      (∀ i : Fin 2, State.reset.bnc.slots[i] = none) ∧ State.reset.bnc.compose = 0 ∧ State.reset.bnc.take = 0 ∧
      State.reset.bnc.serial = 1 ∧ State.reset.bnc.dropWindow = 1600 ∧ State.reset.bnc.rejectMax = 300 ∧
      State.reset.bnc.runoutMax = 60) ∧
    State.reset.holds = ⟨false, false, false, false, false, false⟩ ∧
    State.reset.audit = ⟨0, 0, .none, 0, .a, false, [], none⟩ ∧
    (∀ p, State.reset.port p = ⟨(if p = 0 then .supervisor else .none), [], false, .ok, none⟩) ∧
    (State.reset.guardOpen = false ∧ State.reset.beltRun = false ∧ State.reset.time = ⟨0, 0⟩ ∧
      State.reset.choices = 0 ∧ State.reset.pending = [])) ∧
  (∀ (levels : InputLevels) (s : State), exec (.powerOn levels) s = .next { State.reset with
      lanes.a.blankReady := levels.blankReadyA
      lanes.a.blankWaiting := levels.blankReadyA
      lanes.b.blankReady := levels.blankReadyB
      lanes.b.blankWaiting := levels.blankReadyB
      gauge.eye := if levels.beamCut then .covered else .clear
      gauge.untracked := levels.beamCut
      holds.guardCause := levels.guardOpen
      guardOpen := levels.guardOpen
      beltRun := levels.beltRun
      choices := s.choices
      pending := s.pending })

/-- The state after reset, and after every power-on, is lawful in every way the statements below keep. -/
def Obligations.PowerOnIsLawful : Prop :=
  (State.reset.portsLawful ∧ State.reset.withinBounds ∧ State.reset.reserved ∧ State.reset.marksOrdered ∧
    State.reset.guarded ∧ State.reset.lanesLawful) ∧
  ∀ (levels : InputLevels) (s t : State), exec (.powerOn levels) s = .next t →
    t.portsLawful ∧ t.withinBounds ∧ t.reserved ∧ t.marksOrdered ∧ t.guarded ∧ t.lanesLawful

/-! ## The station ports -/

/-- R180: the command byte of a frame is judged when it arrives, by its code and by the role the port then
holds; a frame judged UNKNOWN_COMMAND or ROLE has no effect, and the result stands whatever follows in the
frame, however long it is, whether or not it breaks, and whatever role the port takes meanwhile. A frame that was
judged free to go on never ends in ROLE, whatever role the port then holds. -/
def Obligations.FramesAreJudgedAtTheirCommandByte : Prop :=
  (∀ (p : PortId) (s : State) (code : Byte), (s.port p).frame = none → listedCode code = false →
    exec (.unknownCommand p code .opens) s = .next (s.setPhase p code (.refused .unknownCommand)) ∧
    ∀ bs, exec (.unknownCommand p code (.ends bs)) s = .next (s.setResult p .unknownCommand)) ∧
  (∀ (p : PortId) (s : State) (c : Cmd), (s.port p).frame = none → (s.port p).role.mayIssue c = false →
    exec (frameInstr c p .opens) s = .next (s.setPhase p c.code (.refused .role)) ∧
    ∀ bs, exec (frameInstr c p (.ends bs)) s = .next (s.setResult p .role)) ∧
  (∀ (p : PortId) (s : State) (c : Cmd), s.ready p c →
    ∃ ph, exec (frameInstr c p .opens) s = .next (s.setPhase p c.code ph) ∧
      match c.row.kind with
      | .whole _ => ph = .whole []
      | .incremental => ∃ i, ph = .incremental i
      | .read n => if n = 0 then ∃ a, ph = .answered a else ph = .reading []) ∧
  (∀ (p : PortId) (s : State) (code : Byte) (r : Result), (s.port p).frame = some ⟨code, .refused r⟩ →
    exec (.frameBreak p) s = .next (s.closeFrame p r) ∧
    ∀ bs,
      (∀ c : Cmd, c.code = code → exec (frameInstr c p (.bytes bs)) s = .next s ∧
        exec (frameInstr c p (.ends bs)) s = .next (s.closeFrame p r)) ∧
      (listedCode code = false → r = .unknownCommand → exec (.unknownCommand p code (.bytes bs)) s = .next s ∧
        exec (.unknownCommand p code (.ends bs)) s = .next (s.closeFrame p r))) ∧
  ∀ (p : PortId) (s t : State) (c : Cmd) (ph : Phase) (bs : List Byte), (s.port p).frame = some ⟨c.code, ph⟩ →
    (match c.row.kind with
    | .whole _ => ∃ buf, ph = .whole buf
    | .incremental => ∃ i, ph = .incremental i
    | .read _ => (∃ buf, ph = .reading buf) ∨ ∃ a, ph = .answered a ∧ a.result ≠ .role) →
    exec (frameInstr c p (.ends bs)) s = .next t → (t.port p).result ≠ .role

/-- R184, Table 10-1: the commands each role may issue, and the 44 codes listed. -/
def Obligations.RolesAndTheirCommands : Prop :=
  (∀ c : Cmd, Role.mayIssue .supervisor c = true ↔ c ≠ .verdict) ∧
  (∀ c : Cmd, Role.mayIssue .none c = true ↔ c = .status ∨ c = .readEvents) ∧
  (∀ c : Cmd, Role.mayIssue .scanner c = true ↔
    c ∈ [.status, .readEvents, .verdict, .stripRead, .laneRead, .mapRead, .channelRead, .orderRead, .binRead]) ∧
  (∀ c : Cmd, Role.mayIssue .machining c = true ↔
    c ∈ [.status, .readEvents, .removeLane, .laneStart, .laneStop, .laneHold, .laneRun, .laneRecipe, .toolReady,
      .laneConfig, .stripRead, .laneRead, .mapRead, .channelRead, .orderRead, .binRead]) ∧
  (∀ c : Cmd, Role.mayIssue .dispatch c = true ↔
    c ∈ [.status, .readEvents, .orderPut, .orderSuspend, .orderResume, .orderAdd, .orderCancel, .orderRetire,
      .takeLabel, .binCleared, .stripRead, .laneRead, .mapRead, .channelRead, .orderRead, .binRead]) ∧
  (∀ c d : Cmd, c.code = d.code → c = d) ∧
  ∀ code : Byte, listedCode code = true ↔ (0x01 ≤ code ∧ code ≤ 0x0E) ∨ (0x10 ≤ code ∧ code ≤ 0x17) ∨
    (0x20 ≤ code ∧ code ≤ 0x24) ∨ (0x30 ≤ code ∧ code ≤ 0x37) ∨ (0x40 ≤ code ∧ code ≤ 0x42) ∨
    (0x50 ≤ code ∧ code ≤ 0x55)

/-- R181: a whole command is taken at the end of its frame, and only when exactly its parameter bytes have
arrived; a frame that comes byte by byte comes to the same as one that comes at once. -/
def Obligations.WholeCommandsTakeTheirExactLength : Prop :=
  ∀ (c : Cmd) (n : Nat) (p : PortId) (s : State) (buf bs : List Byte), c.row.kind = .whole n →
    (s.ready p c → bs.length ≠ n → exec (frameInstr c p (.ends bs)) s = .next (s.setResult p .length)) ∧
    (s.ready p c → exec (frameInstr c p .opens) s = .next (s.setPhase p c.code (.whole []))) ∧
    ((s.port p).frame = some ⟨c.code, .whole buf⟩ →
      exec (frameInstr c p (.bytes bs)) s = .next (s.setPhase p c.code (.whole (buf ++ bs))) ∧
      exec (.frameBreak p) s = .next (s.closeFrame p .broken) ∧
      ((s.port p).role.mayIssue c = true → exec (frameInstr c p (.ends bs)) s =
        exec (frameInstr c p (.ends (buf ++ bs))) (s.modPort p fun q => { q with frame := none })))

/-- R77, R178, R180 to R183: a break ends the frame: BROKEN within the first byte and for a command not yet taken, else
the result it already has; and nothing else changes. In an incremental frame, bytes that come apart come to the same
as bytes that come together, and its end changes nothing but the result. -/
def Obligations.FramesBreakAndEnd : Prop :=
  (∀ (p : PortId) (s : State),
      ((s.port p).frame = none → exec (.frameBreak p) s = .next (s.setResult p .broken)) ∧
      ∀ (code : Byte) (ph : Phase), (s.port p).frame = some ⟨code, ph⟩ →
        exec (.frameBreak p) s = .next (s.closeFrame p
          (match ph with
          | .refused r => r
          | .answered a => a.result
          | .whole _ => .broken
          | .incremental _ => .broken
          | .reading _ => .broken))) ∧
  (∀ (c : Cmd) (p : PortId) (s : State), c.row.kind = .incremental →
      (∀ (as bs : List Byte) (t : State), exec (frameInstr c p (.bytes as)) s = .next t →
        exec (frameInstr c p (.bytes (as ++ bs))) s = exec (frameInstr c p (.bytes bs)) t ∧
        exec (frameInstr c p (.ends (as ++ bs))) s = exec (frameInstr c p (.ends bs)) t) ∧
      ∀ i : Incremental, (s.port p).frame = some ⟨c.code, .incremental i⟩ →
        exec (frameInstr c p (.ends [])) s = .next (s.closeFrame p
          (if i.header = .awaited then .length else if i.buf ≠ [] then .length
            else if i.busy = some true then .editionBusy else if i.bad then .badField else .ok)))

/-- R185 to R187: an event is stamped with the millisecond count and the belt position, and joins the queue of
the one port that holds its kind's role, or of port 0 when no port holds it; a queue that holds 32 records
loses it and the port's overflow flag is set. Nothing else changes but a STATUS response in progress, which
notes the loss (R189). -/
def Obligations.EventsAreRoutedByRole : Prop :=
  ∀ (s : State) (kind : EventKind) (detail : Nat) (n : StripNum) (k subject : Nat), s.portsLawful →
    ∃ p : PortId,
      ((s.port p).role = kind.destination ∨ (p = 0 ∧ ∀ q, (s.port q).role ≠ kind.destination)) ∧
      (∀ q, (s.port q).role = kind.destination → q = p) ∧
      s.unchangedBut [.ports] (s.raise kind detail n k subject) ∧
      (∀ q, q ≠ p → (s.raise kind detail n k subject).port q = s.port q) ∧
      ((s.port p).queue.length < 32 → (s.raise kind detail n k subject).port p = { s.port p with
        queue := (s.port p).queue ++ [⟨kind, detail, s.time.ms, s.track.position, n, k, subject⟩] }) ∧
      (32 ≤ (s.port p).queue.length → (s.raise kind detail n k subject).port p = { s.port p with
        overflow := true
        frame := (s.port p).frame.map Frame.noteLoss })

/-- R184: ROLE_SET: its refusals, in their order, and its effect: the port takes the role, its queue is emptied,
and its overflow flag and result code are kept. Of a READ_EVENTS response in progress there, the rest is shifted
out as it was fixed and releases nothing more (R188). -/
def Obligations.RoleSet : Prop :=
  ∀ (p : PortId) (s : State) (port role : Byte), s.ready p .roleSet →
    (4 ≤ port.toNat ∨ port = 0 ∨ 5 ≤ role.toNat ∨ role = 1 →
      exec (.roleSet p (.ends [port, role])) s = .next (s.setResult p .badField)) ∧
    ∀ (x : PortId) (r : Role), port.toNat = x.val → x ≠ 0 → role.toNat = r.code → r ≠ .supervisor →
      (r ≠ .none → (∃ q, q ≠ x ∧ (s.port q).role = r) →
        exec (.roleSet p (.ends [port, role])) s = .next (s.setResult p .roleTaken)) ∧
      (r = .none ∨ (∀ q, q ≠ x → (s.port q).role ≠ r) →
        exec (.roleSet p (.ends [port, role])) s = .next ((s.modPort x fun q =>
          { q with role := r, queue := [], frame := q.frame.map Frame.discard }).setResult p .ok))

/-- R184, R187: every step keeps the ports lawful: SUPERVISOR at port 0 alone, no other role but NONE at two
ports, no queue beyond 32 records. -/
def Obligations.StepKeepsThePortsLawful : Prop :=
  ∀ s t : State, s.portsLawful → step s = .next t → t.portsLawful

/-! ## Reads and what they hand over -/

/-- R189, R183, Table 10-11: STATUS at its command byte, the end of its frame, and the release of the overflow
flag when byte 3 of the response has been shifted out. That the overflow flag and the belt running level are sent
as 1 or 0 is log entry 15 (PRESUMED); that the release is a command of its own is log entry 7 (the model's choice). -/
def Obligations.StatusReportsAndReleasesTheFlag : Prop :=
  ∀ (p : PortId) (s : State),
    (s.ready p .status →
      exec (.status p .opens) s = .next (s.setPhase p 0x01 (.answered ⟨.ok,
        ([(s.port p).role.code, (s.port p).queue.length, (s.port p).overflow.toNat, s.holds.flags,
          (s.lane .a).state.code, (s.lane .b).state.code, s.beltRun.toNat, s.freeRecords, s.uncutStrips,
          s.fire.schedule.length, s.grading.active.code, s.grading.mode.code, s.labelsHeld]).map (BitVec.ofNat 8),
        0, .flag false⟩)) ∧
      ∀ bs, exec (.status p (.ends bs)) s = .next (s.modPort p fun q =>
        { q with result := .ok, overflow := if 3 ≤ bs.length then false else q.overflow })) ∧
    ∀ (code : Byte) (a : Answer) (lost : Bool), (s.port p).frame = some ⟨code, .answered a⟩ → a.hand = .flag lost →
      a.shifted < 3 → 3 ≤ a.response.length →
      exec (.overflowFlagRelease p) s = .next (s.modPort p fun q =>
        { q with frame := some ⟨code, .answered { a with shifted := 3 }⟩, overflow := lost })

/-- R188, R183: READ_EVENTS fixes the records it returns when its count byte arrives, and each leaves the head
of the queue as its twelfth byte is shifted out; one that ROLE_SET has discarded releases nothing. That the release is
a command of its own is log entry 7 (the model's choice). -/
def Obligations.EventsAreReadAndReleased : Prop :=
  ∀ (p : PortId) (s : State),
    (s.ready p .readEvents →
      exec (.readEvents p (.ends [])) s = .next (s.setResult p .length) ∧
      ∀ (n : Byte) (bs : List Byte),
        (n = 0 ∨ 32 < n.toNat → exec (.readEvents p (.ends (n :: bs))) s = .next (s.setResult p .badField)) ∧
        (1 ≤ n.toNat → n.toNat ≤ 32 →
          exec (.readEvents p (.bytes [n])) s = .next (s.setPhase p 0x02 (.answered ⟨.ok,
            BitVec.ofNat 8 (min n.toNat (s.port p).queue.length) ::
              ((s.port p).queue.take n.toNat).flatMap Event.bytes, 0, .events false⟩)) ∧
          exec (.readEvents p (.ends (n :: bs))) s = .next (s.modPort p fun q =>
            { q with result := .ok, queue := q.queue.drop (min ((bs.length - 1) / 12) n.toNat) }))) ∧
    (∀ (code : Byte) (a : Answer) (discarded : Bool), (s.port p).frame = some ⟨code, .answered a⟩ →
      a.hand = .events discarded → 12 * ((a.shifted - 1) / 12) + 13 ≤ a.response.length →
      exec (.eventRecordRelease p) s = .next (s.modPort p fun q =>
        { q with
          frame := some ⟨code, .answered { a with shifted := 12 * ((a.shifted - 1) / 12) + 13 }⟩
          queue := if discarded then q.queue else q.queue.tail })) ∧
    ∀ e : Event, e.bytes =
      [BitVec.ofNat 8 e.kind.code, BitVec.ofNat 8 e.detail, BitVec.ofNat 8 (e.time.toNat / 256),
       BitVec.ofNat 8 e.time.toNat, BitVec.ofNat 8 (e.position.toNat / 65536),
       BitVec.ofNat 8 (e.position.toNat / 256), BitVec.ofNat 8 e.position.toNat,
       BitVec.ofNat 8 (e.number.toNat / 256), BitVec.ofNat 8 e.number.toNat, BitVec.ofNat 8 e.index,
       BitVec.ofNat 8 (e.subject / 256), BitVec.ofNat 8 e.subject]

/-- R160 to R162, R183, Table 10-8: TAKE_LABEL returns the label in the slot the take indicator names, and its release
comes with the last of its 59 bytes. A label taken before through another port frees nothing; else the slot is freed
and the take indicator moves on, and with another bin waiting its label is composed. PARTIAL, alone in its byte, is
sent as 1 or 0 (log entry 15, PRESUMED); the release as a command of its own is log entry 7 (the model's choice). -/
def Obligations.LabelsAreTakenReleasedAndComposed : Prop :=
  (∀ (p : PortId) (s : State), s.ready p .takeLabel →
      (s.bnc.slots[s.bnc.take] = none → ∀ bs, exec (.takeLabel p (.ends bs)) s = .next (s.setResult p .notFound)) ∧
      ∀ x : Label, s.bnc.slots[s.bnc.take] = some x →
        x.bytes.length = 59 ∧
        exec (.takeLabel p .opens) s =
          .next (s.setPhase p 0x36 (.answered ⟨.ok, x.bytes, 0, .label s.bnc.take x.serial⟩)) ∧
        ∀ bs : List Byte,
          (bs.length < 59 → exec (.takeLabel p (.ends bs)) s = .next (s.setResult p .ok)) ∧
          (59 ≤ bs.length → ∃ t,
            exec (.labelRelease p) (s.setPhase p 0x36 (.answered ⟨.ok, x.bytes, 0, .label s.bnc.take x.serial⟩)) =
              .next t ∧
            exec (.takeLabel p (.ends bs)) s = .next (t.closeFrame p .ok))) ∧
  (∀ (p : PortId) (s : State) (code : Byte) (a : Answer) (slot : Fin 2) (serial : BitVec 32),
      (s.port p).frame = some ⟨code, .answered a⟩ → a.hand = .label slot serial → a.shifted < a.response.length →
      ((∀ x, s.bnc.slots[slot] = some x → x.serial ≠ serial) → exec (.labelRelease p) s =
        .next (s.setPhase p code (.answered { a with shifted := a.response.length }))) ∧
      ∀ x, s.bnc.slots[slot] = some x → x.serial = serial →
        (s.bnc.waitList = [] ∨ s.bnc.serial = 4294967295 → exec (.labelRelease p) s =
          .next { s.setPhase p code (.answered { a with shifted := a.response.length }) with
            bnc.slots := s.bnc.slots.set slot.val none slot.isLt, bnc.take := 1 - slot }) ∧
        ∀ (b : BinId) (rest : List BinId) (i : OrderId) (o : Order), s.bnc.waitList = b :: rest →
          s.bnc.serial ≠ 4294967295 → s.bnc.compose = slot → s.bnc.slots[1 - slot] ≠ none →
          (s.bin b).order = some i → s.order i = some o →
          ∃ t, exec (.labelRelease p) s = .next t ∧ s.unchangedBut [.book, .bins, .ports] t ∧
            t.bnc.slots[slot] = some ⟨s.bnc.serial, i, b, (s.bin b).isPartial, o.profile, (s.bin b).dropped,
              (s.bin b).bundle⟩ ∧
            t.bnc.slots[1 - slot] = s.bnc.slots[1 - slot] ∧
            (t.bnc.compose = 1 - slot ∧ t.bnc.take = 1 - slot ∧ t.bnc.serial = s.bnc.serial + 1 ∧
              t.bnc.waitList = rest) ∧
            (t.bin b = { s.bin b with state := .labelled } ∧ ∀ c, c ≠ b → t.bin c = s.bin c) ∧
            t.book = s.book.map (fun y =>
              if y.id = i then { y with labelled := y.labelled + 1, opened := y.opened - 1 } else y) ∧
            t.ports = (((s.setPhase p code (.answered { a with shifted := a.response.length })).raise .binState 4 0 0
              b.val).raise .labelReady (s.bin b).isPartial.toNat 0 0 b.val).ports) ∧
  ∀ (two four : Nat → List Nat), (∀ n, two n = [n / 256, n]) →
    (∀ n, four n = [n / 16777216, n / 65536, n / 256, n]) → ∀ x : Label, x.bytes =
      (four x.serial.toNat ++ two x.order.toNat ++ [x.bin.val, if x.isPartial then 1 else 0, x.profile] ++
        two x.pieces ++ four x.bundle.totalLength ++ four x.bundle.totalArea ++ x.bundle.grades.toList.flatMap two ++
        x.bundle.histogram.toList.flatMap two ++ two x.bundle.laneA ++ two x.bundle.laneB ++
        two x.bundle.firstStrip.toNat ++ two x.bundle.lastStrip.toNat).map (BitVec.ofNat 8)

/-- R183, R195, R197, Tables 10-9 and 10-10: TRACE_READ returns a held trace and frees it with its last byte, at which
the log header is zero and the log empty, and gives NOT_YET with none held; FAULT_READ returns the fault record, which
becomes empty with its last byte, and gives NOT_FOUND when it is empty; and the bytes of both. TRUNCATED, alone in its
byte, is sent as 1 or 0 (log entry 15, PRESUMED); the releases as commands of their own are log entry 7 (the model's
choice). -/
def Obligations.TracesAndFaultsAreRead : Prop :=
  (∀ (p : PortId) (s : State),
      (s.ready p .traceRead →
        (s.audit.trace ≠ .held → ∀ bs, exec (.traceRead p (.ends bs)) s = .next (s.setResult p .notYet)) ∧
        (s.audit.trace = .held →
          exec (.traceRead p .opens) s =
            .next (s.setPhase p 0x41 (.answered ⟨.ok, s.audit.traceBytes, 0, .trace⟩)) ∧
          s.audit.traceBytes.length = 5 + 8 * s.audit.entries.length ∧
          ∀ bs : List Byte, ∃ t, exec (.traceRead p (.ends bs)) s = .next t ∧ s.unchangedBut [.audit, .ports] t ∧
            t.ports = (s.setResult p .ok).ports ∧
            (bs.length < 5 + 8 * s.audit.entries.length → t.audit = s.audit) ∧
            (5 + 8 * s.audit.entries.length ≤ bs.length → t.audit = { s.audit with
              trace := .none, strip := 0, lane := .a, truncated := false, entries := [] }))) ∧
      ∀ (code : Byte) (a : Answer), (s.port p).frame = some ⟨code, .answered a⟩ → a.hand = .trace →
        a.shifted < a.response.length →
        ∃ t, exec (.traceRelease p) s = .next t ∧ s.unchangedBut [.audit, .ports] t ∧
          t.ports = (s.setPhase p code (.answered { a with shifted := a.response.length })).ports ∧
          (s.audit.trace ≠ .held → t.audit = s.audit) ∧
          (s.audit.trace = .held → t.audit = { s.audit with
            trace := .none, strip := 0, lane := .a, truncated := false, entries := [] })) ∧
  (∀ (p : PortId) (s : State),
      (s.ready p .faultRead →
        (s.audit.fault = none → ∀ bs, exec (.faultRead p (.ends bs)) s = .next (s.setResult p .notFound)) ∧
        ∀ f, s.audit.fault = some f →
          f.bytes.length = 11 ∧
          exec (.faultRead p .opens) s = .next (s.setPhase p 0x42 (.answered ⟨.ok, f.bytes, 0, .fault⟩)) ∧
          ∀ bs : List Byte, exec (.faultRead p (.ends bs)) s = .next { s.setResult p .ok with
            audit.fault := if bs.length < 11 then some f else none }) ∧
      ∀ (code : Byte) (a : Answer), (s.port p).frame = some ⟨code, .answered a⟩ → a.hand = .fault →
        a.shifted < a.response.length →
        exec (.faultRecordRelease p) s =
          .next { s.setPhase p code (.answered { a with shifted := a.response.length }) with audit.fault := none }) ∧
  ∀ (two three : Nat → List Nat), (∀ n, two n = [n / 256, n]) → (∀ n, three n = [n / 65536, n / 256, n]) →
    (∀ a : Audit, a.traceBytes = (two a.strip.toNat ++
      [laneCode a.lane, a.entries.length, if a.truncated then 1 else 0] ++ a.entries.flatMap fun e =>
        [e.kind.code, e.detail, e.index] ++ three e.position.toNat ++ two e.time.toNat).map (BitVec.ofNat 8)) ∧
    ∀ f : FaultRec, f.bytes = ([f.kind.code] ++ two f.number.toNat ++ [f.index] ++ two f.subject ++
      three f.position.toNat ++ two f.time.toNat).map (BitVec.ofNat 8)

/-- R29, R53, R79, R110, R137, R167, R183, Tables 10-7, 10-8 and 10-12: the six state reads change nothing but the
port's result, whatever is clocked after them, and show the state as it stands when their last parameter byte arrives;
and the bytes of their responses. A flag or level alone in its byte is sent as 1 or 0 (log entry 15, PRESUMED); which
level of the guard is sent as 1 is left open (log entry 14). -/
def Obligations.StateReadsShowAndChangeNothing : Prop :=
  ∀ (p : PortId) (s : State) (one : Nat → Byte) (two three four : Nat → List Byte),
    (∀ n, one n = BitVec.ofNat 8 n) → (∀ n, two n = [one (n / 256), one n]) →
    (∀ n, three n = [one (n / 65536), one (n / 256), one n]) →
    (∀ n, four n = [one (n / 16777216), one (n / 65536), one (n / 256), one n]) →
    ∀ (bit : Bool → Nat) (place : Option Segment → List Byte) (recipe : Recipe → List Byte)
      (entries : List Expected → List Byte), (∀ v, bit v = if v then 1 else 0) →
    (∀ g, place g = match g with
      | some g => two g.start ++ two g.stop ++ [one g.faceClass]
      | none => [0, 0, 0, 0, 0]) →
    (∀ r, recipe r = [one r.profile] ++ two r.widthNominal ++ two r.thicknessNominal ++ [one r.toolSet]) →
    (∀ es, entries es = es.flatMap fun e => two e.number.toNat ++ [one e.index] ++ three e.windowEnd.toNat) →
    (∀ c ∈ [Cmd.stripRead, .laneRead, .mapRead, .channelRead, .orderRead, .binRead], s.ready p c →
      ∀ bs : List Byte, ∃ r, exec (frameInstr c p (.ends bs)) s = .next (s.setResult p r) ∧
        (bs.length < cmdParams c → r = .length)) ∧
    (s.ready p .channelRead → ∃ level : Byte, (level = 0 ∨ level = 1) ∧
      exec (.channelRead p .opens) s = .next (s.setPhase p 0x53 (.answered ⟨.ok,
        [level, one s.fire.schedule.length] ++ (List.finRange 14).flatMap (fun c =>
          [one ((match (s.channel c).state with | .idle => 0 | .pulsing _ => 1 | .recovering _ => 2) +
            128 * bit (s.fireOutput c))] ++
          two (s.channel c).current.width ++ two (s.channel c).current.recovery ++
          match (s.channel c).pending with
          | some x => [1] ++ two x.width ++ two x.recovery
          | none => [0, 0, 0, 0, 0]), 0, .nothing⟩))) ∧
    (s.ready p .stripRead → ∀ hi lo : Byte, ∃ a,
      exec (.stripRead p (.bytes [hi, lo])) s = .next (s.setPhase p 0x50 (.answered a)) ∧ a.hand = .nothing ∧
      (num16 hi lo = 0 → a.result = .badField) ∧
      (num16 hi lo ≠ 0 → s.carried (num16 hi lo) = false → a.result = .notFound) ∧
      (num16 hi lo ≠ 0 → ∀ r, s.strip (num16 hi lo) = some r → a.result = .ok ∧ a.response =
        [1, 0, one (laneCode r.lane), one r.state.code] ++ three (r.grantPos.getD 0).toNat ++
          three (r.lead.getD 0).toNat ++ two (r.length.getD 0) ++
          [one (bit r.grantPos.isSome + 2 * bit r.lead.isSome + 4 * bit r.length.isSome + 8 * bit r.width.isSome +
            16 * bit r.thickness.isSome + 32 * bit r.moisture.isSome + 64 * bit r.outOfRange + 128 * bit r.traced)] ++
          two (r.width.getD 0) ++ two (r.thickness.getD 0) ++ two (r.moisture.getD 0) ++ [one r.edition.code] ++
          match r.plan with
          | none => List.replicate 24 0
          | some x => [one x.source.code] ++ (match x.override with
              | some o => [one o.grade.code, one o.reason.code]
              | none => [0, 0]) ++ [one x.segments.length] ++ place x.segments[0]? ++ place x.segments[1]? ++
              place x.segments[2]? ++ place x.segments[3]?) ∧
      (num16 hi lo ≠ 0 → s.strip (num16 hi lo) = none → ∀ rs : List PieceRec,
        rs = [0, 1, 2, 3].filterMap (fun k => s.piece (num16 hi lo) k) → rs ≠ [] → a.result = .ok ∧
        a.response = [one rs.length] ++ rs.flatMap fun r =>
          [1, one r.index] ++ three r.lead.toNat ++ two r.segLength ++ two r.finalLength ++
            [one r.faceClass, one r.grade.code, one (match r.reason with | some why => why.code | none => 0),
              one (bit r.tongueDone + 2 * bit r.grooveDone + 4 * bit r.traced)] ++
            match r.state with
            | .onBelt => [0, 0]
            | .assigned b => [1, one b.val]
            | .riding => [2, 0])) ∧
    (s.ready p .laneRead → ∀ b : Byte, ∃ a,
      exec (.laneRead p (.bytes [b])) s = .next (s.setPhase p 0x51 (.answered a)) ∧ a.hand = .nothing ∧
      (2 ≤ b.toNat → a.result = .badField) ∧
      ∀ l, b.toNat = laneCode l → ∀ c : LaneCtl, c = s.lane l → a.result = .ok ∧ a.response =
        [one c.state.code, one c.target.code] ++ recipe c.current ++
          (match c.pending with | some r => [1] ++ recipe r | none => [0, 0, 0, 0, 0, 0, 0]) ++
          two c.limits.capacity ++ two c.limits.startDelay ++ two c.limits.resumeDelay ++ two c.limits.idleTimeout ++
          two c.limits.releasePulse ++ two c.limits.outfeedPulse ++
          [one (bit c.blankWaiting + 2 * bit c.blankReady + 4 * bit (c.state ≠ .off && c.state ≠ .toolChange) +
            8 * bit (c.state = .run || c.state = .hold || c.state = .drain) + 16 * bit c.releaseTimer.isSome +
            32 * bit c.outfeedTimer.isSome + 64 * bit (s.frontAtExit l)), one (s.queue l).length] ++
          (List.range 12).flatMap fun i => match (s.queue l)[i]? with | some r => two r.number.toNat | none => [0, 0]) ∧
    (s.ready p .mapRead → ∀ e pr fc n : Byte, ∃ a,
      exec (.mapRead p (.bytes [e, pr, fc, n])) s = .next (s.setPhase p 0x52 (.answered a)) ∧ a.hand = .nothing ∧
      (1 < e.toNat ∨ 7 < pr.toNat ∨ 15 < fc.toNat ∨ n = 0 ∨ 128 < n.toNat → a.result = .badField) ∧
      (∀ ed : Edition, e.toNat = ed.code → pr.toNat ≤ 7 → fc.toNat ≤ 15 → 1 ≤ n.toNat → n.toNat ≤ 128 →
        a.result = .ok ∧ a.response = [one s.grading.active.code, one s.grading.mode.code,
          one (s.referenceCount .e0), one (s.referenceCount .e1)] ++ (List.range n.toNat).map fun i =>
            one ((((s.grading.edition ed)[(16 * pr.toNat + fc.toNat + i) % 128]?).getD .regrade).code))) ∧
    (s.ready p .orderRead → ∀ hi lo : Byte, ∃ a,
      exec (.orderRead p (.bytes [hi, lo])) s = .next (s.setPhase p 0x54 (.answered a)) ∧ a.hand = .nothing ∧
      (num16 hi lo = 0 → a.result = .ok ∧ a.response = [one s.book.length] ++
        s.book.flatMap fun o => two o.id.toNat ++ [one o.state.code, one o.priority]) ∧
      (num16 hi lo ≠ 0 → s.order (num16 hi lo) = none → a.result = .notFound) ∧
      (num16 hi lo ≠ 0 → ∀ before o after, s.book = before ++ o :: after → o.id = num16 hi lo →
        (∀ x ∈ before, x.id ≠ o.id) → a.result = .ok ∧ a.response =
          two o.id.toNat ++ [o.gradeSet, one o.profile] ++ two o.bandMin ++ two o.bandMax ++ two o.target ++
          two o.longThreshold ++ [one o.longShare] ++ two o.ordered ++
          [one o.priority, one o.maxBins, one (before.length + 1), one o.state.code] ++ two o.labelled ++
          [one o.opened, one o.bins.length] ++
          ((List.range 4).map fun i => match o.bins[i]? with | some b => one b.val | none => 0) ++
          [one (bit o.needsBin)])) ∧
    (s.ready p .binRead → ∀ b : Byte, ∃ a,
      exec (.binRead p (.bytes [b])) s = .next (s.setPhase p 0x55 (.answered a)) ∧ a.hand = .nothing ∧
      (11 < b.toNat → a.result = .badField) ∧
      ∀ head : List Byte, head = [one s.labelsHeld, one s.bnc.waitList.length] ++
        ((List.range 10).map fun i => match s.bnc.waitList[i]? with | some c => one c.val | none => 0) ++
        four s.bnc.serial.toNat →
      (∀ i : BinId, b.toNat = i.val → ∀ x : OrderBin, x = s.bin i → a.result = .ok ∧ a.response = head ++
        [one x.state.code] ++ (match x.order with | some o => two o.toNat | none => [0, 0]) ++
        two (x.dropped + x.expected.length) ++ two x.shortCommitted ++ two x.dropped ++ [one (bit x.isPartial)] ++
        four x.bundle.totalLength ++ four x.bundle.totalArea ++ x.bundle.grades.toList.flatMap two ++
        x.bundle.histogram.toList.flatMap two ++ two x.bundle.laneA ++ two x.bundle.laneB ++
        two x.bundle.firstStrip.toNat ++ two x.bundle.lastStrip.toNat ++ two x.expected.length ++
        entries x.expected) ∧
      (b = 10 → a.result = .ok ∧ a.response = head ++ two s.bnc.reject.dropped ++
        two (s.bnc.reject.dropped + s.bnc.reject.expected.length) ++ two s.bnc.reject.expected.length ++
        entries s.bnc.reject.expected) ∧
      (b = 11 → a.result = .ok ∧ a.response = head ++ two s.bnc.runoutCount))

/-! ## The belt and the strip track -/

/-- R14, R16, R22, R65: a forward count pays off backlash; else the belt advances by one, at which a held trail edge is
taken. The whole effect is given where nothing is due at the old position; where something is (log entry 3), that the
belt has advanced by one. BELT_RUN is the level of its input; while it is active the five commands are refused with
STATE (REMOVE_LANE's test of its lane code comes before, R25), and encoder counts do not heed it. That STATUS sends
it as 1 or 0 is log entry 15 (PRESUMED). -/
def Obligations.TheBeltMoves : Prop :=
  (∀ s : State,
      (0 < s.track.backlash →
        exec .encoderForwardCount s = .next { s with track.backlash := s.track.backlash - 1 }) ∧
      (s.track.backlash = 0 → s.dueHere = [] → s.gauge.eye ≠ .trailHeld →
        exec .encoderForwardCount s = .next { s with track.position := s.track.position + 1 }) ∧
      (s.track.backlash = 0 → s.dueHere = [] → s.gauge.eye = .trailHeld → s.gauge.objectStart = s.track.position →
        exec .encoderForwardCount s =
          exec .entryEyeTrailEdge { s with track.position := s.track.position + 1, gauge.eye := .covered }) ∧
      (s.track.backlash = 0 → ∃ t, exec .encoderForwardCount s = .next t ∧
        t.track.position = s.track.position + 1 ∧ t.track.backlash = 0 ∧ t.track.marks = s.track.marks)) ∧
  ((∀ (active : Bool) (s : State), exec (.beltRunChange active) s = .next { s with beltRun := active }) ∧
    (∀ (p : PortId) (s : State) (bs : List Byte), s.beltRun = true →
      (∀ c ∈ [Cmd.removeStrip, .removeSpan, .lineClear, .marksSet], s.ready p c → bs.length = cmdParams c →
        exec (frameInstr c p (.ends bs)) s = .next (s.setResult p .state)) ∧
      (s.ready p .removeLane → ∀ l : Lane,
        exec (.removeLane p (.ends [BitVec.ofNat 8 (laneCode l)])) s = .next (s.setResult p .state))) ∧
    (∀ (b : Bool) (s t : State), s.dueHere = [] → s.gauge.eye ≠ .trailHeld →
      exec .encoderForwardCount s = .next t →
        exec .encoderForwardCount { s with beltRun := b } = .next { t with beltRun := b }) ∧
    (∀ (b : Bool) (s t : State), exec .encoderReverseCount s = .next t →
      exec .encoderReverseCount { s with beltRun := b } = .next { t with beltRun := b }) ∧
    ∀ (p : PortId) (s : State), s.ready p .status → ∃ a, exec (.status p .opens) s = .next
      (s.setPhase p 0x01 (.answered a)) ∧ a.response[6]? = some (if s.beltRun then 1 else 0))

/-- R15: a reverse count. -/
def Obligations.ReverseCountsRaiseTheBacklash : Prop :=
  (∀ s : State, exec .encoderReverseCount s =
    .next { s with track.backlash := if 65535 ≤ s.track.backlash then 65535 else s.track.backlash + 1 }) ∧
  State.reset.track.backlash = 0 ∧
  (∀ (levels : InputLevels) (s t : State), exec (.powerOn levels) s = .next t → t.track.backlash = 0) ∧
  ∀ (p : PortId) (st : FrameStep) (s t : State), exec (.lineClear p st) s = .next t →
    t.track.backlash = s.track.backlash ∧ t.track.position = s.track.position

/-- R18: MARKS_SET replaces the whole mark table, when the track is empty, the belt stopped, and every check
holds. -/
def Obligations.MarksAreSetWhole : Prop :=
  ∀ (p : PortId) (s : State) (bs : List Byte), s.ready p .marksSet → bs.length = 48 →
    (s.allocated ≠ 0 ∨ s.beltRun = true →
      exec (.marksSet p (.ends bs)) s = .next (s.setResult p .state)) ∧
    (s.allocated = 0 → s.beltRun = false → ∃ m : Marks,
      [m.deadline, m.trim, m.endmatch, m.sort] ++ m.gates.toList ++ [m.runout] =
        (List.range 16).map (fun i => word24 (bs.getD (3 * i) 0) (bs.getD (3 * i + 1) 0) (bs.getD (3 * i + 2) 0)) ∧
      if (∀ x ∈ [m.deadline, m.trim, m.endmatch, m.sort] ++ m.gates.toList ++ [m.runout], x < 1048576) ∧
          s.gauge.maxStrip < m.deadline ∧ m.deadline < m.trim ∧ m.trim + s.gauge.maxStrip ≤ m.endmatch ∧
          m.endmatch + s.gauge.maxStrip ≤ m.sort ∧ m.sort < m.gates[0] ∧
          (∀ i j : GateId, i < j → m.gates[i] < m.gates[j]) ∧ m.gates[10] + s.bnc.dropWindow < m.runout
      then exec (.marksSet p (.ends bs)) s = .next { s.setResult p .ok with track.marks := m }
      else exec (.marksSet p (.ends bs)) s = .next (s.setResult p .badField))

/-- R15, R18, R19, R94, R102, R125, R165, R193: every step keeps the relations between the marks, MAX_STRIP and
DROP_WINDOW; the bounds of the part's counts and lists, with the order ids distinct; and no channel PULSING while
the guard is open. -/
def Obligations.StepKeepsMarksBoundsAndGuard : Prop :=
  ∀ s t : State, step s = .next t → (s.marksOrdered → t.marksOrdered) ∧ (s.withinBounds → t.withinBounds) ∧
    (s.guarded → t.guarded)

/-- R21 to R24: REMOVE_STRIP and REMOVE_SPAN: their tests in their order, and the removal of every transit and
belt-list record of a number, and of every belt-list record in the span that runs forward from one position to
another, both included. The counts have changed, so a lane may release a blank (R12): no record of a queue is lost. -/
def Obligations.StripsAndSpansAreRemoved : Prop :=
  (∀ (p : PortId) (s : State) (hi lo : Byte), s.ready p .removeStrip → s.beltRun = false →
      (num16 hi lo = 0 → exec (.removeStrip p (.ends [hi, lo])) s = .next (s.setResult p .badField)) ∧
      (num16 hi lo ≠ 0 → (∃ l, ∃ r ∈ s.queue l, r.number = num16 hi lo) →
        exec (.removeStrip p (.ends [hi, lo])) s = .next (s.setResult p .state)) ∧
      (num16 hi lo ≠ 0 → s.carried (num16 hi lo) = false →
        exec (.removeStrip p (.ends [hi, lo])) s = .next (s.setResult p .notFound)) ∧
      (num16 hi lo ≠ 0 → (∀ l, ∀ r ∈ s.queue l, r.number ≠ num16 hi lo) → s.carried (num16 hi lo) = true →
        ∃ t, exec (.removeStrip p (.ends [hi, lo])) s = .next t ∧ s.unchangedBut removalBlocks t ∧
          (t.port p).result = .ok ∧
          t.track.transit = s.track.transit.filter (fun r => decide (r.number ≠ num16 hi lo)) ∧
          t.track.belt = s.track.belt.filter (fun x => decide (x.number ≠ num16 hi lo)) ∧
          (∀ l, ∃ new, t.queue l = s.queue l ++ new) ∧
          (∀ e, e ∈ t.fire.schedule ↔ e ∈ s.fire.schedule ∧
            ¬ (∃ r ∈ s.track.transit, r.number = num16 hi lo ∧ e.names r.number 0 = true) ∧
            ¬ (∃ x ∈ s.track.belt, x.number = num16 hi lo ∧
              e.names x.number (match x with | .strip _ => 0 | .piece r => r.index) = true)) ∧
          (t.track.position = s.track.position ∧ t.track.backlash = s.track.backlash ∧
            t.track.marks = s.track.marks ∧ t.fire.channels = s.fire.channels))) ∧
  (∀ (p : PortId) (s : State) (f2 f1 f0 t2 t1 t0 : Byte), s.ready p .removeSpan → s.beltRun = false →
      ∀ inside : BeltRec → Bool, (∀ x, inside x = true ↔ ∃ q, x.lead = some q ∧
          (q - pos24 f2 f1 f0).toNat ≤ (pos24 t2 t1 t0 - pos24 f2 f1 f0).toNat) →
        ((∀ x ∈ s.track.belt, inside x = false) →
          exec (.removeSpan p (.ends [f2, f1, f0, t2, t1, t0])) s = .next (s.setResult p .notFound)) ∧
        ((∃ x ∈ s.track.belt, inside x = true) →
          ∃ t, exec (.removeSpan p (.ends [f2, f1, f0, t2, t1, t0])) s = .next t ∧ s.unchangedBut removalBlocks t ∧
            (t.port p).result = .ok ∧ t.track.transit = s.track.transit ∧
            t.track.belt = s.track.belt.filter (fun x => !inside x) ∧ (∀ l, ∃ new, t.queue l = s.queue l ++ new) ∧
            (∀ e, e ∈ t.fire.schedule ↔ e ∈ s.fire.schedule ∧
              ¬ (∃ x ∈ s.track.belt, inside x = true ∧
                e.names x.number (match x with | .strip _ => 0 | .piece r => r.index) = true)) ∧
            (t.track.position = s.track.position ∧ t.track.backlash = s.track.backlash ∧
              t.track.marks = s.track.marks ∧ t.fire.channels = s.fire.channels)))

/-- R25, R41, R48, R52, R55: REMOVE_LANE: its tests in their order, and what an emptied queue does to its lane:
nothing in HOLD, OFF and TOOL_CHANGE; in DRAIN the drain completes. -/
def Obligations.LanesAreRemoved : Prop :=
  ∀ (p : PortId) (s : State), s.ready p .removeLane →
    (∀ b : Byte, 2 ≤ b.toNat → exec (.removeLane p (.ends [b])) s = .next (s.setResult p .badField)) ∧
    ∀ l : Lane, s.beltRun = false →
      ((s.lane l).state = .starting ∨ (s.lane l).state = .run ∨ (s.lane l).state = .standby ∨
          (s.lane l).state = .resuming →
        exec (.removeLane p (.ends [BitVec.ofNat 8 (laneCode l)])) s = .next (s.setResult p .state)) ∧
      (s.queue l = [] → (s.lane l).state.mayRemove = true →
        exec (.removeLane p (.ends [BitVec.ofNat 8 (laneCode l)])) s = .next (s.setResult p .ok)) ∧
      (s.queue l ≠ [] → (s.lane l).state.mayRemove = true →
        ∃ t, exec (.removeLane p (.ends [BitVec.ofNat 8 (laneCode l)])) s = .next t ∧
          s.unchangedBut removalBlocks t ∧ (t.port p).result = .ok ∧
          (t.track.transit = s.track.transit ∧ t.track.belt = s.track.belt) ∧
          (∃ new, t.queue (otherLane l) = s.queue (otherLane l) ++ new) ∧
          (s.frontAtExit l = true → t.passedOver l = false) ∧
          ((s.lane l).state ≠ .drain → t.queue l = [] ∧ t.lane l = s.lane l) ∧
          ((s.lane l).state = .drain → (s.lane l).target = .off → t.queue l = [] ∧
            t.lane l = { s.lane l with state := .off, target := .noTarget, delay := none, idle := none }) ∧
          ((s.lane l).state = .drain → (s.lane l).target = .recipe → ∀ r, (s.lane l).pending = some r →
            r.toolSet ≠ (s.lane l).current.toolSet → t.queue l = [] ∧
              t.lane l = { s.lane l with
                state := .toolChange, target := .noTarget, current := r, pending := none, delay := none
                idle := none }) ∧
          ((s.lane l).state = .drain → (s.lane l).target = .recipe → ∀ r, (s.lane l).pending = some r →
            r.toolSet = (s.lane l).current.toolSet → (s.lane l).limits.resumeDelay ≠ 0 → t.queue l = [] ∧
              t.lane l = { s.lane l with
                state := .resuming, target := .noTarget, current := r, pending := none
                delay := some (s.lane l).limits.resumeDelay, idle := none }))

/-- R28, R54, R63, R109, R140, R159, R166, R196: LINE_CLEAR: when it is refused, and what it does to every block. Every
expected-drop list is emptied; then each order bin, in ascending bin number, reopens if it is CLOSING (or drains, if its
order is being cancelled) and is settled if it is DRAINING; a bin in any other state, when its turn comes, is left as it
is; and LINE_CLEARED, with the number of records removed, comes last (log entry 16, DEDUCED). With no bin in
those two states the bin controller is kept but for the lists and the commitments they held, the book is kept, and
LINE_CLEARED is the one event. -/
def Obligations.TheLineIsCleared : Prop :=
  ∀ (p : PortId) (s : State), s.ready p .lineClear →
    (s.beltRun = true ∨ (∃ l, (s.lane l).state ≠ .off ∧ (s.lane l).state ≠ .hold) →
      exec (.lineClear p (.ends [])) s = .next (s.setResult p .state)) ∧
    (s.beltRun = false → (∀ l, (s.lane l).state = .off ∨ (s.lane l).state = .hold) →
      ∀ (bins : Bins) (cleared : State) (reopened : State → BinId → State),
        bins = { s.bnc with
          bins := s.bnc.bins.map fun x =>
            { x with expected := [], shortCommitted := x.shortCommitted - x.expected.countP Expected.short }
          reject := ⟨s.bnc.reject.dropped, []⟩ } →
        cleared = { s with
          track.queues := ⟨[], []⟩
          track.transit := []
          track.belt := []
          merge.passedOver := ⟨false, false⟩
          gauge.untracked := (if s.gauge.eye = .clear then s.gauge.untracked else true)
          fire.schedule := []
          bnc := bins
          audit := (if s.audit.trace = .inProgress then { s.audit with
            trace := .none, strip := 0, lane := .a, truncated := false, entries := [] } else s.audit) } →
        (∀ u b, reopened u b =
          if (u.bin b).state = .closing then
            (if (u.boundOrder b).any (fun o => decide (o.state = .cancelling)) then u.drainBin b
            else (u.modBin b fun x => { x with state := .opened }).raise .binState 1 0 0 b.val)
          else if (u.bin b).state = .draining ∧ (u.bin b).expected = [] then
            (if (u.bin b).dropped = 0 then u.giveBack b 1 else u.enterLabelWait b true)
          else u) →
        ∃ t, exec (.lineClear p (.ends [])) s = .next t ∧
          t = (State.raise ((List.finRange 10).foldl reopened cleared) .lineCleared 0 0 0 s.allocated).setResult p
            .ok ∧
          s.unchangedBut [.track, .merge, .gauge, .fire, .book, .bins, .audit, .ports] t ∧ (t.port p).result = .ok ∧
          (t.freeRecords = 128 ∧ t.uncutStrips = 0) ∧
          (t.track = cleared.track ∧ t.merge = cleared.merge ∧ t.gauge = cleared.gauge ∧ t.fire = cleared.fire ∧
            t.audit = cleared.audit) ∧
          (∀ b : GateId, t.expected b = []) ∧ t.bnc.reject.dropped = s.bnc.reject.dropped ∧
          t.bnc.runoutCount = s.bnc.runoutCount ∧
          ((∀ b, (s.bin b).state ≠ .closing ∧ (s.bin b).state ≠ .draining) →
            t.bnc = bins ∧ t.book = s.book ∧
            t.ports = ((s.raise .lineCleared 0 0 0 s.allocated).setResult p .ok).ports))

/-- R9, R10, R84: every step keeps the reserve of three free records for each uncut strip, the strip numbers
distinct, and the plans within four segments. -/
def Obligations.StepKeepsTheReserve : Prop :=
  ∀ s t : State, s.reserved → step s = .next t → t.reserved

/-! ## The lanes -/

/-- R9, R11, R36, R38, R39, R191, R192: a lane that tests its release conditions: when they hold, and what a
release does; the strip number is the first after the last assigned that is neither 0 nor still carried. -/
def Obligations.BlanksAreReleased : Prop :=
  ∀ (s : State) (l : Lane),
    (s.canRelease l = true ↔ (s.lane l).state = .run ∧ (s.lane l).blankWaiting = true ∧
      (s.queue l).length < (s.lane l).limits.capacity ∧ (s.lane l).releaseTimer = none ∧
      4 ≤ (s.freeRecords : Int) - 3 * s.uncutStrips) ∧
    (s.canRelease l = false → s.testRelease l = s) ∧
    (s.canRelease l = true → ∃ n : StripNum,
      (n ≠ 0 ∧ s.carried n = false ∧ ∃ d : Nat, n = s.track.lastNumber + BitVec.ofNat 16 (d + 1) ∧
        ∀ j, j < d → s.track.lastNumber + BitVec.ofNat 16 (j + 1) = 0 ∨
          s.carried (s.track.lastNumber + BitVec.ofNat 16 (j + 1)) = true) ∧
      ∀ sample : Bool, (sample = true ↔ s.audit.interval ≠ 0 ∧ s.audit.interval ≤ s.audit.counter + 1) →
      ∀ traced : Bool, (traced = true ↔ sample = true ∧ s.audit.trace = .none) →
        s.unchangedBut [.track, .lanes, .audit] (s.testRelease l) ∧
        (s.testRelease l).track = { s.track with
          lastNumber := n
          queues := s.track.queues.set l (s.queue l ++ [
            { number := n, lane := l, profile := (s.lane l).current.profile
              widthNominal := (s.lane l).current.widthNominal
              thicknessNominal := (s.lane l).current.thicknessNominal
              edition := s.grading.active, state := .inMoulder, grantPos := none, lead := none, length := none
              outOfRange := false, width := none, thickness := none, moisture := none, plan := none
              traced := traced }]) } ∧
        (s.testRelease l).lanes = s.lanes.set l { s.lane l with
          blankWaiting := false, releaseTimer := some (s.lane l).limits.releasePulse, idle := none } ∧
        (s.testRelease l).audit =
          (let a := { s.audit with
            counter := if s.audit.interval = 0 then s.audit.counter else if sample then 0 else s.audit.counter + 1 }
          if traced then { a with
            trace := .inProgress, strip := n, lane := l, truncated := false
            entries := [⟨.released, 0, 0, s.track.position, s.time.ms⟩] } else a))

/-- R30, R32, R34, R37, R39: a lane enters a state: its delay and idle timers are discarded and LANE_STATE is
raised; entering RUN it tests its release conditions, and its idle timer may start; a start or resume delay of 0
takes it on into RUN. -/
def Obligations.LanesEnterTheirStates : Prop :=
  ∀ (s : State) (l : Lane),
    (∀ st, s.unchangedBut [.lanes, .ports] (s.enterLane l st) ∧
      (s.enterLane l st).lanes = s.lanes.set l { s.lane l with state := st, delay := none, idle := none } ∧
      (s.enterLane l st).ports = (s.raise .laneState st.code 0 0 (laneCode l)).ports) ∧
    ((s.enterLane l .run).canRelease l = true → s.enterRun l = (s.enterLane l .run).testRelease l) ∧
    ((s.enterLane l .run).canRelease l = false →
      ((s.lane l).blankReady = false → s.queue l = [] → (s.lane l).limits.idleTimeout ≠ 0 →
        s.enterRun l = (s.enterLane l .run).modLane l fun c =>
          { c with idle := some (100 * (s.lane l).limits.idleTimeout) }) ∧
      ((s.lane l).blankReady = true ∨ s.queue l ≠ [] ∨ (s.lane l).limits.idleTimeout = 0 →
        s.enterRun l = s.enterLane l .run)) ∧
    ∀ st d, s.enterDelayed l st d = if d = 0 then (s.enterLane l st).enterRun l
      else (s.enterLane l st).modLane l fun c => { c with delay := some d }

/-- R33, R45 to R47, R50, Table 2-2: LANE_START, LANE_RUN, TOOL_READY, LANE_HOLD and LANE_STOP in every lane state; a
lane code naming neither lane is refused with BAD_FIELD. -/
def Obligations.LaneCommands : Prop :=
  (∀ (p : PortId) (s : State),
      (∀ c ∈ [Cmd.laneStart, .laneRun, .toolReady], s.ready p c → ∀ b : Byte, 2 ≤ b.toNat →
        exec (frameInstr c p (.ends [b])) s = .next (s.setResult p .badField)) ∧
      ∀ l : Lane,
        (s.ready p .laneStart → exec (.laneStart p (.ends [BitVec.ofNat 8 (laneCode l)])) s = .next
          (if (s.lane l).state = .off then
            (s.enterDelayed l .starting (s.lane l).limits.startDelay).setResult p .ok
          else s.setResult p .state)) ∧
        (s.ready p .laneRun → exec (.laneRun p (.ends [BitVec.ofNat 8 (laneCode l)])) s = .next
          (if (s.lane l).state = .hold then (s.enterRun l).setResult p .ok else s.setResult p .state)) ∧
        (s.ready p .toolReady → exec (.toolReady p (.ends [BitVec.ofNat 8 (laneCode l)])) s = .next
          (if (s.lane l).state = .toolChange then
            (s.enterDelayed l .starting (s.lane l).limits.startDelay).setResult p .ok
          else s.setResult p .state))) ∧
  (∀ (p : PortId) (s : State),
      (∀ c ∈ [Cmd.laneHold, .laneStop], s.ready p c → ∀ b : Byte, 2 ≤ b.toNat →
        exec (frameInstr c p (.ends [b])) s = .next (s.setResult p .badField)) ∧
      ∀ l : Lane,
        (s.ready p .laneHold → exec (.laneHold p (.ends [BitVec.ofNat 8 (laneCode l)])) s = .next
          (if (s.lane l).state = .hold then s.setResult p .ok
          else if (s.lane l).state = .off ∨ (s.lane l).state = .drain ∨ (s.lane l).state = .toolChange then
            s.setResult p .state
          else (s.enterLane l .hold).setResult p .ok)) ∧
        (s.ready p .laneStop → exec (.laneStop p (.ends [BitVec.ofNat 8 (laneCode l)])) s = .next
          (if (s.lane l).state = .off then s.setResult p .ok
          else if (s.lane l).state = .drain then
            (if (s.lane l).target = .recipe then
              (s.modLane l fun c => { c with target := .off, pending := none }).setResult p .ok
            else s.setResult p .ok)
          else if s.queue l = [] then (s.enterLane l .off).setResult p .ok
          else ((s.modLane l fun c => { c with target := .off }).enterLane l .drain).setResult p .ok)))

/-- R48, R49: LANE_RECIPE in every lane state; on an empty queue the drain it starts completes at once. -/
def Obligations.LaneRecipesAreTaken : Prop :=
  ∀ (p : PortId) (s : State), s.ready p .laneRecipe → ∀ lane pr w1 w0 t1 t0 tool : Byte,
    (2 ≤ lane.toNat ∨ 7 < pr.toNat →
      exec (.laneRecipe p (.ends [lane, pr, w1, w0, t1, t0, tool])) s = .next (s.setResult p .badField)) ∧
    ∀ l : Lane, lane = BitVec.ofNat 8 (laneCode l) → pr.toNat ≤ 7 →
      ∀ r : Recipe, r = ⟨pr.toNat, 256 * w1.toNat + w0.toNat, 256 * t1.toNat + t0.toNat, tool.toNat⟩ →
      ∀ drain taken : State,
        drain = (s.modLane l fun c => { c with pending := some r, target := .recipe }).enterLane l .drain →
        taken = (drain.modLane l fun c => { c with target := .noTarget, current := r, pending := none }) →
        exec (.laneRecipe p (.ends [lane, pr, w1, w0, t1, t0, tool])) s = .next
          (if (s.lane l).state = .off then (s.modLane l fun c => { c with current := r }).setResult p .ok
          else if (s.lane l).state = .drain ∨ (s.lane l).state = .toolChange then s.setResult p .busy
          else if s.queue l ≠ [] then drain.setResult p .ok
          else if r.toolSet = (s.lane l).current.toolSet then
            (taken.enterDelayed l .resuming (s.lane l).limits.resumeDelay).setResult p .ok
          else ((taken.enterLane l .toolChange).raise .toolChangeDue r.toolSet 0 0 (laneCode l)).setResult p .ok)

/-- R12, R36, R37, R41, R48: what a lane does when its queue has become shorter: in DRAIN, once the queue is empty, the
drain completes; else it tests its release conditions, and its idle timer may start. After a change of the counts
each lane tests its release conditions; when both could release, which comes first is left open (log entry 10). -/
def Obligations.LanesAnswerChanges : Prop :=
  (∀ (s : State) (l : Lane),
      ((s.lane l).state = .drain → s.queue l = [] →
        ((s.lane l).target = .off → s.queueShortened l =
          (s.modLane l fun c => { c with target := .noTarget }).enterLane l .off) ∧
        ∀ r, (s.lane l).target = .recipe → (s.lane l).pending = some r → ∀ taken : State,
          taken = (s.modLane l fun c => { c with target := .noTarget, current := r, pending := none }) →
          s.queueShortened l =
            if r.toolSet = (s.lane l).current.toolSet then
              taken.enterDelayed l .resuming (s.lane l).limits.resumeDelay
            else (taken.enterLane l .toolChange).raise .toolChangeDue r.toolSet 0 0 (laneCode l)) ∧
      ((s.lane l).state = .drain → s.queue l ≠ [] → s.queueShortened l = s) ∧
      ((s.lane l).state = .run → s.canRelease l = true → s.queueShortened l = s.testRelease l) ∧
      ((s.lane l).state = .run → s.canRelease l = false → s.queueShortened l =
        if (s.lane l).blankReady = false ∧ s.queue l = [] ∧ (s.lane l).limits.idleTimeout ≠ 0 then
          s.modLane l fun c => { c with idle := some (100 * (s.lane l).limits.idleTimeout) } else s) ∧
      ((s.lane l).state ≠ .drain → (s.lane l).state ≠ .run → s.queueShortened l = s)) ∧
  (∀ s : State,
      (s.canRelease .a = false → s.retest = s.testRelease .b) ∧
      (s.canRelease .b = false → s.retest = s.testRelease .a) ∧
      (s.canRelease .a = true → s.canRelease .b = true → ∃ l : Lane, s.retest =
        ((State.testRelease { s with choices := s.choices + 1 } l).testRelease (otherLane l))))

/-- R39, R51, R182: LANE_CONFIG: its lane code, and each limit group against its range. A new IDLE_TIMEOUT restarts the
idle timer where it runs; that one raised from 0 starts none is log entry 13 (DEDUCED). -/
def Obligations.LaneLimitsAreSet : Prop :=
  ∀ (p : PortId) (s : State),
    (s.ready p .laneConfig → ∀ b : Byte, ∃ i : Incremental,
      exec (.laneConfig p (.bytes [b])) s = .next (s.setPhase p 0x16 (.incremental i)) ∧ i.buf = [] ∧
      (i.bad = true ↔ 2 ≤ b.toNat) ∧ ∀ l, b.toNat = laneCode l → i.header = .lane l) ∧
    ∀ i : Incremental, (s.port p).frame = some ⟨0x16, .incremental i⟩ → i.buf = [] →
      (∀ (ident v1 v0 : Byte), i.header ≠ .awaited → exec (.laneConfig p (.bytes [ident, v1, v0])) s =
        exec (.laneConfigGroup p ident (BitVec.ofNat 16 (256 * v1.toNat + v0.toNat))) s) ∧
      (i.header = .failed → ∀ ident value, exec (.laneConfigGroup p ident value) s = .next s) ∧
      ∀ l, i.header = .lane l → ∀ (ident : Byte) (value : BitVec 16),
        ∃ t, exec (.laneConfigGroup p ident value) s = .next t ∧
          ∀ good : Bool, (good = true ↔
            (ident = 0 ∧ 1 ≤ value.toNat ∧ value.toNat ≤ 12 ∧ (s.lane l).state = .off) ∨
            (ident = 1 ∧ value.toNat ≤ 60000) ∨ (ident = 2 ∧ value.toNat ≤ 60000) ∨ ident = 3 ∨
            (ident = 4 ∧ 1 ≤ value.toNat ∧ value.toNat ≤ 255) ∨
            (ident = 5 ∧ 1 ≤ value.toNat ∧ value.toNat ≤ 255)) →
          (good = false → t = s.setPhase p 0x16 (.incremental { i with bad := true })) ∧
          (good = true → t = s.modLane l fun c =>
            if ident = 0 then { c with limits.capacity := value.toNat }
            else if ident = 1 then { c with limits.startDelay := value.toNat }
            else if ident = 2 then { c with limits.resumeDelay := value.toNat }
            else if ident = 3 then { c with
              limits.idleTimeout := value.toNat
              idle := if value = 0 then none else c.idle.map fun _ => 100 * value.toNat }
            else if ident = 4 then { c with limits.releasePulse := value.toNat }
            else { c with limits.outfeedPulse := value.toNat })

/-- R35, R37, R39, R40: the edges of BLANK_READY. That a change to the level it already has changes nothing is
the model's choice (log entry 8). -/
def Obligations.BlankReadyEdges : Prop :=
  ∀ (l : Lane) (s : State),
    ((s.lane l).blankReady = true → exec (.blankReadyActive l) s = .next s) ∧
    ((s.lane l).blankReady = false → ∀ u : State,
      u = (s.modLane l fun c => { c with blankReady := true, blankWaiting := true, idle := none }) →
      exec (.blankReadyActive l) s = .next
        (if (s.lane l).state = .standby then u.enterDelayed l .resuming (s.lane l).limits.resumeDelay
        else u.testRelease l)) ∧
    ((s.lane l).blankReady = false → exec (.blankReadyInactive l) s = .next s) ∧
    ((s.lane l).blankReady = true → exec (.blankReadyInactive l) s = .next (s.modLane l fun c =>
      { c with
        blankReady := false
        blankWaiting := false
        idle := if (s.lane l).state = .run ∧ s.queue l = [] ∧ (s.lane l).limits.idleTimeout ≠ 0 then
          some (100 * (s.lane l).limits.idleTimeout) else c.idle }))

/-- R32, R34, R38, R39, R44, R57: the run-outs of the four lane timers. The model's choice (log entry 5): a run-out
commanded before its tick lets time pass to it, in which whatever is due happens first, each at its own tick; a timer
stopped by then, or standing stopped, has no run-out. A run-out that is due has its effect at once, and one with nothing
due and no other run-out before it after the milliseconds it had to go, of 1000 microseconds each (log entry 2,
PRESUMED). -/
def Obligations.LaneTimersRunOut : Prop :=
  ∀ (l : Lane) (s : State),
    (∀ d t, t = s.elapse (if d = 0 then 0 else 1000 * d - s.time.subMs) →
      ((s.lane l).delay = some d → exec (.delayTimerRunOut l) s = .next
        (if (t.lane l).delay = some 0 then t.enterRun l else t)) ∧
      ((s.lane l).idle = some d → exec (.idleTimerRunOut l) s = .next
        (if (t.lane l).idle = some 0 then t.enterLane l .standby else t)) ∧
      ((s.lane l).releaseTimer = some d → exec (.releasePulseEnd l) s = .next
        (if (t.lane l).releaseTimer = some 0 then
          (t.modLane l fun c => { c with releaseTimer := none }).testRelease l else t)) ∧
      ((s.lane l).outfeedTimer = some d → ∀ u, u = (t.modLane l fun c => { c with outfeedTimer := none }) →
        exec (.outfeedPulseEnd l) s = .next
          (if (t.lane l).outfeedTimer = some 0 then (if t.frontAtExit l then u.arbitrate else u) else t))) ∧
    ((s.lane l).delay = none → exec (.delayTimerRunOut l) s = .next s) ∧
    ((s.lane l).idle = none → exec (.idleTimerRunOut l) s = .next s) ∧
    ((s.lane l).releaseTimer = none → exec (.releasePulseEnd l) s = .next s) ∧
    ((s.lane l).outfeedTimer = none → exec (.outfeedPulseEnd l) s = .next s) ∧
    s.elapse 0 = s ∧
    (∀ d, d ≠ 0 → s.time.subMs < 1000 → s.dueAll = [] →
      (∀ k x, (s.lane k).delay = some x ∨ (s.lane k).idle = some x ∨ (s.lane k).releaseTimer = some x ∨
        (s.lane k).outfeedTimer = some x → d ≤ x) →
      (∀ c left, (s.channel c).state = .pulsing left ∨ (s.channel c).state = .recovering left →
        1000 * d - s.time.subMs ≤ left) →
      ∀ t, t = s.elapse (1000 * d - s.time.subMs) →
        t.time = ⟨s.time.ms + BitVec.ofNat 16 d, 0⟩ ∧ s.unchangedBut [.lanes, .fire, .time] t ∧
        (∀ k, t.lane k = { s.lane k with
          delay := (s.lane k).delay.map (· - d)
          idle := (s.lane k).idle.map (· - d)
          releaseTimer := (s.lane k).releaseTimer.map (· - d)
          outfeedTimer := (s.lane k).outfeedTimer.map (· - d) }) ∧
        t.fire.schedule = s.fire.schedule ∧ ∀ c, t.channel c = { s.channel c with
          state := match (s.channel c).state with
            | .idle => .idle
            | .pulsing left => .pulsing (left - (1000 * d - s.time.subMs))
            | .recovering left => .recovering (left - (1000 * d - s.time.subMs)) })

/-- R39, R41, Table 2-1: every step keeps each lane's queue within its CAPACITY and empty in the states with the
feed stopped, and the idle timer running only in RUN on an empty queue. -/
def Obligations.StepKeepsTheLanesLawful : Prop :=
  ∀ s t : State, s.lanesLawful → step s = .next t → t.lanesLawful

/-! ## Holds, line faults, the merge and the entry gauge -/

/-- R168 to R171, R197: a request that leaves the hold-cause set as it stands does nothing; one that changes it raises
one HOLD_CHANGE with the causes after the change and the causes changed, and an empty set lets the arbiter grant.
LINE_HOLD is active exactly while a cause is set. A line fault reported by a FAULT event is captured when the fault
record is empty, with the belt position and time stamp, and raised. -/
def Obligations.HoldCausesAndLineFaults : Prop :=
  (∀ (s : State) (h : Holds),
      (h = s.holds → s.setHolds h = s) ∧
      (∀ t : State, t = State.raise { s with holds := h } .holdChange
          ((if h.guardCause then 1 else 0) + (if h.operator then 2 else 0) + (if h.phantom then 4 else 0) +
            (if h.stray then 8 else 0) + (if h.rejectFull then 16 else 0) + (if h.runoutFull then 32 else 0)) 0 0
          ((if h.guardCause ≠ s.holds.guardCause then 1 else 0) + (if h.operator ≠ s.holds.operator then 2 else 0) +
            (if h.phantom ≠ s.holds.phantom then 4 else 0) + (if h.stray ≠ s.holds.stray then 8 else 0) +
            (if h.rejectFull ≠ s.holds.rejectFull then 16 else 0) +
            (if h.runoutFull ≠ s.holds.runoutFull then 32 else 0)) →
        h ≠ s.holds →
          s.setHolds h = if h = ⟨false, false, false, false, false, false⟩ then t.arbitrate else t) ∧
      (s.lineHold = true ↔ s.holds ≠ ⟨false, false, false, false, false, false⟩)) ∧
  (∀ (s : State) (kind : FaultKind) (n : StripNum) (k subject : Nat),
      s.unchangedBut [.audit, .ports] (s.lineFault kind n k subject) ∧
      (s.audit.fault = none → (s.lineFault kind n k subject).audit =
        { s.audit with fault := some ⟨kind, n, k, subject, s.track.position, s.time.ms⟩ }) ∧
      (s.audit.fault ≠ none → (s.lineFault kind n k subject).audit = s.audit) ∧
      (s.lineFault kind n k subject).ports = (s.raise .fault kind.code n k subject).ports)

/-- R173: HOLD: a whole command of the supervisor with no parameters. -/
def Obligations.HoldSetsTheOperatorCause : Prop :=
  (∀ r : Role, r.mayIssue .hold = true ↔ r = .supervisor) ∧
  ∀ (p : PortId) (s : State), s.ready p .hold →
    (∀ bs : List Byte, bs ≠ [] → exec (.hold p (.ends bs)) s = .next (s.setResult p .length)) ∧
    (s.holds.operator = true → exec (.hold p (.ends [])) s = .next (s.setResult p .ok)) ∧
    (s.holds.operator = false → ∃ t, exec (.hold p (.ends [])) s = .next t ∧ s.unchangedBut [.holds, .ports] t ∧
      t.holds = { s.holds with operator := true } ∧
      t.ports = ((s.raise .holdChange
        ((if s.holds.guardCause then 1 else 0) + 2 + (if s.holds.phantom then 4 else 0) +
          (if s.holds.stray then 8 else 0) + (if s.holds.rejectFull then 16 else 0) +
          (if s.holds.runoutFull then 32 else 0)) 0 0 2).setResult p .ok).ports)

/-- R164, R165, R174, R176: RESUME clears OPERATOR, PHANTOM and STRAY, and GUARD when the guard is closed;
REJECT_CLEARED and RUNOUT_CLEARED set their count to 0 and clear their cause. -/
def Obligations.CausesAreCleared : Prop :=
  ∀ (p : PortId) (s : State),
    (s.ready p .resume → exec (.resume p (.ends [])) s = .next ((s.setHolds ⟨s.holds.guardCause && s.guardOpen,
      false, false, false, s.holds.rejectFull, s.holds.runoutFull⟩).setResult p .ok)) ∧
    (s.ready p .rejectCleared → exec (.rejectCleared p (.ends [])) s = .next
      ((State.setHolds { s with bnc.reject := ⟨0, s.bnc.reject.expected⟩ }
        { s.holds with rejectFull := false }).setResult p .ok)) ∧
    (s.ready p .runoutCleared → exec (.runoutCleared p (.ends [])) s = .next
      ((State.setHolds { s with bnc.runoutCount := 0 } { s.holds with runoutFull := false }).setResult p .ok))

/-- R44, R55 to R58: the merge arbiter: when it grants, to which lane, and what a grant does; that the lane answers its
shorter queue last is log entry 16 (DEDUCED). With MERGE_GAP 0 the gap is open again after a grant, and a request that
still stands is granted at the same event; that the lane granted first asks for a release first is log entry 24 (the
model's choice). -/
def Obligations.TheArbiterGrants : Prop :=
  ∀ s : State,
    (∀ l, s.requests l = true ↔ (∃ r rest, s.queue l = r :: rest ∧ r.state = .atExit) ∧
      (s.lane l).outfeedTimer = none) ∧
    (s.holds ≠ ⟨false, false, false, false, false, false⟩ ∨ s.merge.gapOpen = false ∨
      (∀ l, s.requests l = false) → s.arbitrate = s) ∧
    (s.holds = ⟨false, false, false, false, false, false⟩ → s.merge.gapOpen = true →
      s.merge.mergeGap = 0 → (∃ l, s.requests l = true) → s.arbitrate.merge.gapOpen = true) ∧
    ∀ (wins : State → Lane → Prop) (granted : State → Lane → StripRec → List StripRec → State),
      (∀ u l, wins u l ↔ u.requests l = true ∧ (u.requests (otherLane l) = true →
        (u.merge.policy = .primaryA ∧ l = .a) ∨ (u.merge.policy = .primaryB ∧ l = .b) ∨
          (u.merge.policy = .alternate ∧
            ((u.merge.lastWinner = none ∧ l = .a) ∨ u.merge.lastWinner = some (otherLane l))))) →
      (∀ (u : State) (l : Lane) (r : StripRec) (rest : List StripRec) (moved traced : State),
        moved = { u with
          track.queues := u.track.queues.set l rest
          track.transit := u.track.transit ++ [{ r with state := .transit, grantPos := some u.track.position }]
          lanes := u.lanes.set l { u.lane l with outfeedTimer := some (u.lane l).limits.outfeedPulse }
          merge.lastGrant := u.track.position
          merge.gapOpen := false
          merge.lastWinner := some l
          merge.passedOver := (if u.requests (otherLane l) then
            u.merge.passedOver.set (otherLane l) true else u.merge.passedOver).set l false } →
        traced = (moved.traceEntry (r.traced && u.passedOver l) .mergeWait 0 0).traceEntry r.traced .granted 0 0 →
        granted u l r rest = traced.queueShortened l) →
      s.holds = ⟨false, false, false, false, false, false⟩ → s.merge.gapOpen = true →
      ∀ (l : Lane) (r : StripRec) (rest : List StripRec), wins s l → s.queue l = r :: rest →
        (s.merge.mergeGap ≠ 0 → s.arbitrate = granted s l r rest) ∧
        (s.merge.mergeGap = 0 → ∀ u : State, u = { granted s l r rest with merge.gapOpen := true } →
          ((∀ m, u.requests m = false) → s.arbitrate = u) ∧
          ∀ (m : Lane) (r2 : StripRec) (rest2 : List StripRec), wins u m → u.queue m = r2 :: rest2 →
            s.arbitrate = { granted u m r2 rest2 with merge.gapOpen := true })

/-- R42, R43, R56, R57: the gap-open flag is set when the belt has reached the last-grant position plus MERGE_GAP, and a
standing request may be granted; that the event named before its position changes nothing is the model's choice (log
entry 6). A lead edge at a lane's exit eye makes an IN_MOULDER front record AT_EXIT, and its request may be granted;
anything else is an EXIT_STRAY, which sets PHANTOM. -/
def Obligations.TheGapOpensAndStripsExit : Prop :=
  (∀ s : State,
      (s.merge.gapOpen = true ∨
          8388608 ≤ (s.track.position - (s.merge.lastGrant + BitVec.ofNat 24 s.merge.mergeGap)).toNat →
        exec .gapOpenSet s = .next s) ∧
      (s.merge.gapOpen = false →
          (s.track.position - (s.merge.lastGrant + BitVec.ofNat 24 s.merge.mergeGap)).toNat < 8388608 →
        exec .gapOpenSet s = .next (State.arbitrate { s with merge.gapOpen := true }))) ∧
  (∀ (l : Lane) (s : State),
      (s.queue l = [] → ∀ u, u = s.lineFault .exitStray 0 0 (laneCode l) →
        exec (.exitEyeLeadEdge l) s = .next (u.setHolds { s.holds with phantom := true })) ∧
      ∀ r rest, s.queue l = r :: rest →
        (r.state ≠ .inMoulder → ∀ u, u = s.lineFault .exitStray r.number 0 (laneCode l) →
          exec (.exitEyeLeadEdge l) s = .next (u.setHolds { s.holds with phantom := true })) ∧
        (r.state = .inMoulder → ∀ t, t = State.traceEntry
            { s with track.queues := s.track.queues.set l ({ r with state := .atExit } :: rest) }
            r.traced .atExit 0 0 →
          exec (.exitEyeLeadEdge l) s = .next (if (s.lane l).outfeedTimer = none then t.arbitrate else t)))

/-- R61: the transit timeout: each oldest record whose grant position plus TRANSIT_MAX has been reached is
removed as MISSING and reported, oldest first; with none due nothing happens (log entry 6, the model's choice). -/
def Obligations.TransitRecordsTimeOut : Prop :=
  ∀ s : State, ∀ due : StripRec → Bool,
    (∀ r, due r = true ↔ ∃ g, r.grantPos = some g ∧
      (s.track.position - (g + BitVec.ofNat 24 s.merge.transitMax)).toNat < 8388608) →
    (∃ t, exec .transitTimeout s = .next t ∧ s.unchangedBut removalBlocks t ∧
      t.track.transit = s.track.transit.dropWhile due ∧ t.track.belt = s.track.belt ∧
      (∀ l, ∃ new, t.queue l = s.queue l ++ new) ∧ t.fire.channels = s.fire.channels) ∧
    exec .transitTimeout s = .next ((s.track.transit.takeWhile due).foldl (fun u r =>
      (State.afterStripRemoval { u with track.transit := u.track.transit.tail } r .missing).lineFault .missing
        r.number 0 (laneCode r.lane)) s)

/-- R64, R66: a lead edge at the entry eye, in each eye state. In COVERED there is none, since edges alternate
(log entry 8). -/
def Obligations.EntryEyeLeadEdges : Prop :=
  ∀ s : State,
    (s.gauge.eye = .covered → exec .entryEyeLeadEdge s = .next s) ∧
    (s.gauge.eye = .trailHeld → exec .entryEyeLeadEdge s = .next { s with gauge.eye := .covered }) ∧
    (s.gauge.eye = .clear → s.track.transit = [] → ∀ t u,
      t = { s with gauge.eye := .covered, gauge.objectStart := s.track.position, gauge.untracked := true } →
      u = t.lineFault .phantomEye 0 0 0 →
      exec .entryEyeLeadEdge s = .next (u.setHolds { s.holds with phantom := true })) ∧
    (s.gauge.eye = .clear → ∀ r rest, s.track.transit = r :: rest →
      exec .entryEyeLeadEdge s = .next (State.traceEntry
        { s with
          gauge.eye := .covered
          gauge.objectStart := s.track.position
          gauge.untracked := false
          track.transit := rest
          track.belt := s.track.belt ++
            [.strip { r with state := .measuring, lead := some s.track.position }] }
        r.traced .eyeLead 0 0))

/-- R65 to R69: a trail edge at the entry eye, the measurement it makes, and the over-length cut-off. The model's
choices: a trail edge with the eye not COVERED changes nothing (log entry 8), nor does a cut-off that is not due (log
entry 6). -/
def Obligations.EntryEyeTrailEdgesMeasure : Prop :=
  ∀ s : State,
    (s.gauge.eye ≠ .covered → exec .entryEyeTrailEdge s = .next s) ∧
    (s.gauge.eye = .covered → s.track.position = s.gauge.objectStart →
      exec .entryEyeTrailEdge s = .next { s with gauge.eye := .trailHeld }) ∧
    (s.gauge.eye = .covered → s.track.position ≠ s.gauge.objectStart →
      (∀ r ∈ s.beltStrips, r.state ≠ .measuring) →
      (s.gauge.untracked = true →
        exec .entryEyeTrailEdge s = .next { s with gauge.eye := .clear, gauge.untracked := false }) ∧
      (s.gauge.untracked = false → ∀ u, u = State.lineFault { s with gauge.eye := .clear } .phantomEye 0 0 0 →
        exec .entryEyeTrailEdge s = .next (u.setHolds { s.holds with phantom := true }))) ∧
    ((∀ r ∈ s.beltStrips, r.state ≠ .measuring) → exec .overLengthCutOff s = .next s) ∧
    ∀ (r : StripRec) (lead : Pos) (len : Nat), s.measuring = some r → r.lead = some lead →
      len = (s.track.position - lead).toNat → ∀ noted : State, noted = s.traceEntry r.traced .eyeTrail 0 0 →
      ∀ rejected : State → Nat → State,
        (∀ u detail, rejected u detail = ((u.modBeltStrip r.number fun x =>
          { x with
            length := some len
            outOfRange := true
            state := .planned
            plan := some ⟨[⟨0, len, 0⟩], .default, some ⟨.reject, .length⟩⟩ }).traceEntry r.traced .planned 2
              0).raise .outOfRange detail r.number 0 len) →
      (s.gauge.eye = .covered → s.track.position ≠ s.gauge.objectStart →
        exec .entryEyeTrailEdge s = .next
          (if len < s.gauge.minStrip then rejected { noted with gauge.eye := .clear } 0
          else if s.gauge.maxStrip < len then rejected { noted with gauge.eye := .clear } 1
          else (State.modBeltStrip { noted with gauge.eye := .clear } r.number fun x =>
            { x with length := some len, state := .awaitGrade }).raise .stripMeasured
              (128 * laneCode r.lane + r.profile % 8) r.number 0 len)) ∧
      (len ≤ s.gauge.maxStrip → exec .overLengthCutOff s = .next s) ∧
      (s.gauge.maxStrip < len →
        exec .overLengthCutOff s = .next { rejected noted 1 with gauge.untracked := true })

/-! ## Grading -/

/-- R71, R74 to R76: MAP_WRITE: its start group, and each grade byte at the write pointer of the inactive
edition. What a busy edition means after a start group that failed is the model's choice (log entry 12). -/
def Obligations.TheMapIsWritten : Prop :=
  ∀ (p : PortId) (s : State),
    (s.ready p .mapWrite → ∀ pr fc : Byte, ∃ i : Incremental,
      exec (.mapWrite p (.bytes [pr, fc])) s = .next (s.setPhase p 0x20 (.incremental i)) ∧ i.buf = [] ∧
      i.busy = none ∧ (i.bad = true ↔ 8 ≤ pr.toNat ∨ 16 ≤ fc.toNat) ∧
      (i.header = .failed ↔ 8 ≤ pr.toNat ∨ 16 ≤ fc.toNat) ∧
      (pr.toNat < 8 → fc.toNat < 16 → ∃ at' : Fin 128, i.header = .pointer at' ∧
        at'.val = 16 * pr.toNat + fc.toNat)) ∧
    ∀ (i : Incremental) (b : Byte), (s.port p).frame = some ⟨0x20, .incremental i⟩ → i.buf = [] →
      (i.header ≠ .awaited → exec (.mapWrite p (.bytes [b])) s = exec (.mapWriteGradeByte p b) s) ∧
      (i.header = .failed → ∃ j : Incremental, j.bad = i.bad ∧ j.header = .failed ∧
        exec (.mapWriteGradeByte p b) s = .next (s.setPhase p 0x20 (.incremental j))) ∧
      ∀ (at' : Fin 128) (inactive : Edition), i.header = .pointer at' → inactive ≠ s.grading.active →
        (i.busy = some true ∨ (i.busy = none ∧ 0 < s.referenceCount inactive) →
          exec (.mapWriteGradeByte p b) s = .next (s.setPhase p 0x20 (.incremental { i with busy := some true }))) ∧
        (i.busy = some false ∨ (i.busy = none ∧ s.referenceCount inactive = 0) →
          (10 ≤ b.toNat → exec (.mapWriteGradeByte p b) s = .next (s.setPhase p 0x20 (.incremental { i with
            busy := some false, bad := true, header := .pointer (at' + 1) }))) ∧
          ∀ g : Grade, b.toNat = g.code → ∃ t, exec (.mapWriteGradeByte p b) s = .next t ∧
            s.unchangedBut [.grading, .ports] t ∧
            t.ports = (s.setPhase p 0x20 (.incremental { i with
              busy := some false, header := .pointer (at' + 1) })).ports ∧
            (t.grading.edition inactive = (s.grading.edition inactive).set at'.val g at'.isLt ∧
              t.grading.edition s.grading.active = s.grading.edition s.grading.active ∧
              t.grading.active = s.grading.active ∧ t.grading.mode = s.grading.mode))

/-- R78, R80, R191: MAP_COMMIT, GRADE_MODE and SAMPLE_SET. -/
def Obligations.MapCommitGradeModeAndSampleSet : Prop :=
  ∀ (p : PortId) (s : State),
    (s.ready p .mapCommit → ∀ e : Edition, e ≠ s.grading.active →
      exec (.mapCommit p (.ends [])) s = .next { s.setResult p .ok with grading.active := e }) ∧
    (s.ready p .gradeMode → ∀ b : Byte,
      exec (.gradeMode p (.ends [b])) s = .next
        (if b = 0 then { s.setResult p .ok with grading.mode := .scanner }
        else if b = 1 then { s.setResult p .ok with grading.mode := .manual }
        else s.setResult p .badField)) ∧
    (s.ready p .sampleSet → ∀ hi lo : Byte, exec (.sampleSet p (.ends [hi, lo])) s = .next
      (if 4096 < 256 * hi.toNat + lo.toNat then s.setResult p .badField
      else { s.setResult p .ok with audit.interval := 256 * hi.toNat + lo.toNat, audit.counter := 0 }))

/-- R80 to R86, Tables 4-1 and 10-7: VERDICT and GRADE_ENTRY: the layout, the tests in their order, and the plan
that is written. -/
def Obligations.VerdictsAndGradeEntries : Prop :=
  ∀ (p : PortId) (s : State) (cmd : Cmd) (source : PlanSource) (bs : List Byte),
    (cmd = .verdict ∧ source = .scanner) ∨ (cmd = .gradeEntry ∧ source = .manual) → s.ready p cmd →
    bs.length = 30 → ∃ c : Grading.Command,
      c.number = BitVec.ofNat 16 (256 * (bs.getD 0 0).toNat + (bs.getD 1 0).toNat) ∧
      c.width = (if (bs.getD 2 0).getLsbD 0 then some (256 * (bs.getD 3 0).toNat + (bs.getD 4 0).toNat) else none) ∧
      c.thickness =
        (if (bs.getD 2 0).getLsbD 1 then some (256 * (bs.getD 5 0).toNat + (bs.getD 6 0).toNat) else none) ∧
      c.moisture =
        (if (bs.getD 2 0).getLsbD 2 then some (256 * (bs.getD 7 0).toNat + (bs.getD 8 0).toNat) else none) ∧
      c.count = (bs.getD 9 0).toNat ∧
      c.places = (List.range 4).map (fun j => ⟨256 * (bs.getD (10 + 5 * j) 0).toNat + (bs.getD (11 + 5 * j) 0).toNat,
        256 * (bs.getD (12 + 5 * j) 0).toNat + (bs.getD (13 + 5 * j) 0).toNat, (bs.getD (14 + 5 * j) 0).toNat⟩) ∧
      ∀ answers : Result → Prop,
        (∀ r, answers r ↔ exec (frameInstr cmd p (.ends bs)) s = .next (s.setResult p r)) →
        ((s.grading.mode = .scanner ∧ source = .manual) ∨ (s.grading.mode = .manual ∧ source = .scanner) →
          answers .mode) ∧
        ((s.grading.mode = .scanner ∧ source = .scanner) ∨ (s.grading.mode = .manual ∧ source = .manual) →
          (c.number = 0 → answers .badField) ∧
          (c.number ≠ 0 → s.carried c.number = false → answers .notFound) ∧
          (c.number ≠ 0 → ∀ r, s.strip c.number = some r →
            (r.state ≠ .awaitGrade → r.state ≠ .planned → answers .notYet) ∧
            (r.state = .planned → ∀ plan, r.plan = some plan →
              answers (if plan.source = .default then .tooLate else .already))) ∧
          (c.number ≠ 0 → s.strip c.number = none → ∀ q, (s.pieces.find? fun x => x.number == c.number) = some q →
            answers (if q.source = .default then .tooLate else .already)) ∧
          (c.number ≠ 0 → ∀ r len, s.strip c.number = some r → r.state = .awaitGrade → r.length = some len →
            ∀ passes : Prop, (passes ↔ 1 ≤ c.count ∧ c.count ≤ 4 ∧
              (∀ g ∈ c.places.take c.count, g.faceClass ≤ 15 ∧ g.start < g.stop ∧ g.stop ≤ len ∧
                s.grading.segMin ≤ g.stop - g.start) ∧
              ∀ j g h, (c.places.take c.count)[j]? = some g → (c.places.take c.count)[j + 1]? = some h →
                g.stop ≤ h.start) →
            (¬ passes → answers .badPlan) ∧
            (passes → exec (frameInstr cmd p (.ends bs)) s = .next (((s.modBeltStrip r.number fun x =>
              { x with
                state := .planned
                width := c.width
                thickness := c.thickness
                moisture := c.moisture
                plan := some ⟨c.places.take c.count, source,
                  if c.width.any fun m => m + s.grading.widthTol < x.widthNominal ||
                      x.widthNominal + s.grading.widthTol < m then some ⟨.reject, .width⟩
                  else if c.thickness.any fun m => m + s.grading.thickTol < x.thicknessNominal ||
                      x.thicknessNominal + s.grading.thickTol < m then some ⟨.reject, .thickness⟩
                  else if c.moisture.any fun m => m < s.grading.moistMin || s.grading.moistMax < m then
                    some ⟨.regrade, .moisture⟩
                  else none⟩ }).traceEntry r.traced .planned (if source = .manual then 1 else 0) 0).setResult p
                .ok))))

/-- R20, R88, R89: the deadline arrival: a strip in AWAIT_GRADE is planned by default, and VERDICT_LATE is
raised once to the scanner role and once to the supervisor, or once when no port holds the scanner role. That any
other arrival changes nothing is, where it is not due at its position, the model's choice (log entry 6). -/
def Obligations.DeadlinesPlanByDefault : Prop :=
  ∀ (n : StripNum) (s : State),
    ((∀ r, s.beltStrip n = some r → r.state ≠ .awaitGrade ∨
        ∀ lead, r.lead = some lead → lead + BitVec.ofNat 24 s.track.marks.deadline ≠ s.track.position) →
      exec (.deadlineArrival n) s = .next s) ∧
    ∀ r lead, s.beltStrip n = some r → r.state = .awaitGrade → r.lead = some lead →
      lead + BitVec.ofNat 24 s.track.marks.deadline = s.track.position →
      ∃ t, exec (.deadlineArrival n) s = .next t ∧ s.unchangedBut [.track, .audit, .ports] t ∧
        t.track = (s.modBeltStrip n fun x => { x with
          state := .planned
          plan := some ⟨[⟨0, x.length.getD 0, 0⟩], .default, some ⟨.regrade, .defaulted⟩⟩ }).track ∧
        t.audit = (s.traceEntry r.traced .planned 2 0).audit ∧
        ((∃ q, q ≠ 0 ∧ (s.port q).role = .scanner ∧ s.portsLawful) →
          t.ports = ((s.raise .verdictLate 0 n 0 (laneCode r.lane)).raiseAt 0 .verdictLate 0 n 0
            (laneCode r.lane)).ports) ∧
        ((∀ q, (s.port q).role ≠ .scanner) →
          t.ports = (s.raiseAt 0 .verdictLate 0 n 0 (laneCode r.lane)).ports)

/-! ## The split and the fire channels -/

/-- R13, R112 to R119: the TRIM arrival of a PLANNED strip: its pieces replace it in its place and its strokes, the cuts
in rising offset and then each piece's tongue and groove, join the schedule, or, when the schedule lacks the space, it
becomes one TRIM_FAULT piece. The model's choices: an arrival that is not due changes nothing (log entry 6), nor does
that of a PLANNED strip with no plan, which no run reaches (log entry 20). -/
def Obligations.StripsAreSplitAtTrim : Prop :=
  ∀ (n : StripNum) (s : State),
    ((∀ r, s.beltStrip n = some r → r.state ≠ .planned ∨ r.plan = none ∨
        ∀ lead, r.lead = some lead → lead + BitVec.ofNat 24 s.track.marks.trim ≠ s.track.position) →
      exec (.trimArrival n) s = .next s) ∧
    ∀ (r : StripRec) (plan : Plan) (lead : Pos) (len : Nat), s.beltStrip n = some r → r.state = .planned →
      r.plan = some plan → r.lead = some lead → r.length = some len →
      lead + BitVec.ofNat 24 s.track.marks.trim = s.track.position →
      ∀ (short overLong : Segment → Bool) (grade : Segment → Grade) (piece : Nat → Segment → PieceRec),
        (∀ g, short g = true ↔ (g.stop - g.start : Nat) < s.cut.emMin + s.cut.emTrim) →
        (∀ g, overLong g = true ↔ short g = false ∧
          s.track.marks.sort ≤ s.track.marks.endmatch + (g.stop - g.start)) →
        (∀ g, grade g = match plan.override with
          | some o => o.grade
          | none => ((s.grading.edition r.edition)[16 * r.profile + g.faceClass]?).getD .regrade) →
        (∀ k g, piece k g =
          { number := r.number, index := k, lane := r.lane, profile := r.profile
            width := r.width.getD r.widthNominal
            edition := r.edition, lead := lead + BitVec.ofNat 24 g.start
            segLength := g.stop - g.start, finalLength := g.stop - g.start, faceClass := g.faceClass
            grade := grade g, source := plan.source
            reason := match plan.override with
              | some o => some o.reason
              | none => if grade g = .reject then some .rejectGrade else if grade g = .regrade then
                some .regradeGrade else if short g then some .short else if overLong g then some .endFault else none
            tongueDone := false, grooveDone := false, state := .onBelt, traced := r.traced }) →
        ∀ (offsets : List Nat) (named : Nat → Nat) (group : List FireEntry), offsets.Pairwise (· < ·) →
        (∀ x, x ∈ offsets ↔ 0 < x ∧ x < len ∧ ∃ g ∈ plan.segments, x = g.start ∨ x = g.stop) →
        (∀ x, named x = match plan.segments.findIdx? (fun g => decide (g.start = x)) with
          | some k => k
          | none => (plan.segments.findIdx? fun g => decide (g.stop = x)).getD 0) →
        group = (offsets.map fun x =>
            ⟨lead + BitVec.ofNat 24 (s.track.marks.trim + x), 0, r.number, named x, .cut⟩) ++
          (plan.segments.mapIdx fun k g =>
            if short g = true ∨ overLong g = true then []
            else [⟨(piece k g).lead + BitVec.ofNat 24 s.track.marks.endmatch, 1, r.number, k, .tongue⟩,
              ⟨(piece k g).lead + BitVec.ofNat 24 (s.track.marks.endmatch + (g.stop - g.start)), 2, r.number, k,
                .groove⟩]).flatten →
        (group.length + s.fire.schedule.length ≤ 64 → exec (.trimArrival n) s = .next
          (State.retest { s with
            fire.schedule := group.foldl (fun l e => insertEntry s.distance e l) s.fire.schedule
            track.belt := s.track.belt.flatMap fun
              | .strip x => if x.number = n then (plan.segments.mapIdx piece).map BeltRec.piece else [.strip x]
              | .piece x => [.piece x] })) ∧
        (64 < group.length + s.fire.schedule.length → exec (.trimArrival n) s = .next
          (State.retest (State.lineFault { s with
            track.belt := s.track.belt.flatMap fun
              | .strip x => if x.number = n then [.piece { piece 0 ⟨0, len, (plan.segments.head?.elim 0 Segment.faceClass)⟩ with
                  reason := some .trimFault }] else [.strip x]
              | .piece x => [.piece x] } .scheduleFull n 0 0)))

/-- R95, R104 to R106, R120, R122, R123, R152: a fire request: the first entry due on its channel leaves the
schedule, is FIRED or MISSED, is reported, and its outcome is handed on. With no entry due nothing happens
(log entry 6). -/
def Obligations.FireRequestsAreAnswered : Prop :=
  ∀ (c : ChannelId) (s : State),
    ((∀ e ∈ s.fire.schedule, e.channel ≠ c ∨ e.position ≠ s.track.position) →
      exec (.fireRequest c) s = .next s) ∧
    ∀ (before after : List FireEntry) (e : FireEntry), s.fire.schedule = before ++ e :: after →
      (∀ x ∈ before, x.channel ≠ c ∨ x.position ≠ s.track.position) → e.channel = c →
      e.position = s.track.position →
      ∀ fired : Bool, (fired = true ↔ s.guardOpen = false ∧ (s.channel c).state = .idle) →
      ∃ t, exec (.fireRequest c) s = .next t ∧ s.unchangedBut [.track, .fire, .audit, .ports] t ∧
        (∀ d, t.channel d = if d = c ∧ fired = true then
          { s.channel c with state := .pulsing (s.channel c).current.width } else s.channel d) ∧
        t.ports = (if fired then s.ports else (s.raise .fireMissed
          ((match e.purpose with | .cut => 0 | .tongue => 1 | .groove => 2 | .gate => 3) +
            (if s.guardOpen then 128 else 0)) e.number e.index c.val).ports) ∧
        (∀ a : Audit, a = (s.traceEntry ((s.piece e.number e.index).any fun r => r.traced)
            (match e.purpose with
              | .cut => if fired then .cutFired else .cutMissed
              | .tongue => if fired then .tongueFired else .tongueMissed
              | .groove => if fired then .grooveFired else .grooveMissed
              | .gate => if fired then .gateFired else .gateMissed) 0 e.index).audit →
          t.audit = if fired = false ∧ a.fault = none then
            { a with fault := some ⟨.fireMissed, e.number, e.index, c.val, s.track.position, s.time.ms⟩ } else a) ∧
        t.track = { s.track with belt := s.track.belt.map fun
          | .strip r => .strip r
          | .piece r => .piece (
            if e.purpose = .cut ∧ fired = false ∧ r.number = e.number then { r with reason := some .trimFault }
            else if e.purpose = .tongue ∧ fired = true ∧ r.number = e.number ∧ r.index = e.index then
              { r with tongueDone := true, finalLength := if r.grooveDone then r.segLength - s.cut.emTrim else r.segLength }
            else if e.purpose = .groove ∧ fired = true ∧ r.number = e.number ∧ r.index = e.index then
              { r with grooveDone := true, finalLength := if r.tongueDone then r.segLength - s.cut.emTrim else r.segLength }
            else if (e.purpose = .tongue ∨ e.purpose = .groove) ∧ fired = false ∧ r.number = e.number ∧
                r.index = e.index then
              { r with reason := match r.reason with | some why => some why | none => some .endFault }
            else r) } ∧
        t.fire.schedule = (before ++ after).filter (fun x => decide ¬ (fired = false ∧ x.number = e.number ∧
          ((e.purpose = .cut ∧ (x.purpose = .tongue ∨ x.purpose = .groove) ∧
              s.piece x.number x.index ≠ none) ∨
            (e.purpose = .tongue ∧ x.purpose = .groove ∧ x.index = e.index) ∨
            (e.purpose = .groove ∧ x.purpose = .tongue ∧ x.index = e.index))))

/-- R96, R98, R99: the ends of pulses and recoveries, each at the microsecond tick its duration fixes. The model's
choice (log entry 5): an end commanded before its tick lets time pass to it, in which whatever is due happens first, each
at its own tick; so a pulse that ends on the way is followed by its recovery from that tick on. 1000 microseconds make a
millisecond tick (log entry 2, PRESUMED). A pending timing becomes current on entry into IDLE. CHANNEL_SET: each timing
group against its conditions; it becomes current on an IDLE channel and pending on another. -/
def Obligations.ChannelsEndTheirStrokesAndAreTimed : Prop :=
  (∀ (c : ChannelId) (s : State),
      ((∀ left, (s.channel c).state ≠ .pulsing left) → exec (.firePulseEnd c) s = .next s) ∧
      ((∀ left, (s.channel c).state ≠ .recovering left) → exec (.fireRecoveryEnd c) s = .next s) ∧
      (∀ left, (s.channel c).state = .pulsing left → ∀ t, t = s.elapse left → exec (.firePulseEnd c) s =
        .next (if (t.channel c).state = .pulsing 0 then t.modChannel c fun x =>
          (if x.current.recovery = 0 then ⟨.idle, x.pending.getD x.current, none⟩
          else { x with state := .recovering x.current.recovery }) else t)) ∧
      (∀ left, (s.channel c).state = .recovering left → ∀ t, t = s.elapse left → exec (.fireRecoveryEnd c) s =
        .next (if (t.channel c).state = .recovering 0 then
          t.modChannel c fun x => ⟨.idle, x.pending.getD x.current, none⟩ else t)) ∧
      s.elapse 0 = s ∧
      ∀ us, us ≠ 0 → s.dueAll = [] →
        (∀ k x, (s.lane k).delay = some x ∨ (s.lane k).idle = some x ∨ (s.lane k).releaseTimer = some x ∨
          (s.lane k).outfeedTimer = some x → us ≤ 1000 * x - s.time.subMs) →
        (∀ d left, d ≠ c → (s.channel d).state = .pulsing left ∨ (s.channel d).state = .recovering left →
          us ≤ left) →
        ∀ t, t = s.elapse us →
          ((∀ left, (s.channel c).state = .pulsing left ∨ (s.channel c).state = .recovering left → us ≤ left) →
            s.unchangedBut [.lanes, .fire, .time] t ∧ t.fire.schedule = s.fire.schedule ∧
            t.time = ⟨s.time.ms + BitVec.ofNat 16 ((s.time.subMs + us) / 1000), (s.time.subMs + us) % 1000⟩ ∧
            ∀ d, t.channel d = { s.channel d with
              state := match (s.channel d).state with
                | .idle => .idle
                | .pulsing left => .pulsing (left - us)
                | .recovering left => .recovering (left - us) }) ∧
          (∀ left, (s.channel c).state = .pulsing left → left < us →
            us ≤ left + (s.channel c).current.recovery ∨ (s.channel c).current.recovery = 0 →
            t.channel c = if (s.channel c).current.recovery = 0 then
                ⟨.idle, (s.channel c).pending.getD (s.channel c).current, none⟩
              else { s.channel c with state := .recovering ((s.channel c).current.recovery - (us - left)) }) ∧
          ∀ left, (s.channel c).state = .recovering left → left < us →
            t.channel c = ⟨.idle, (s.channel c).pending.getD (s.channel c).current, none⟩) ∧
  (∀ (p : PortId) (s : State),
      (s.ready p .channelSet → exec (.channelSet p .opens) s =
          .next (s.setPhase p 0x17 (.incremental ⟨.noHeader, [], false, none⟩)) ∧
        exec (.channelSet p (.ends [])) s = .next (s.setResult p .ok)) ∧
      ∀ i : Incremental, (s.port p).frame = some ⟨0x17, .incremental i⟩ → i.buf = [] → i.header = .noHeader →
        ∀ (ch : Byte) (w r : BitVec 16),
          exec (.channelSet p (.bytes (ch :: (be16 w.toNat ++ be16 r.toNat)))) s =
            exec (.channelSetGroup p ch w r) s ∧
          (14 ≤ ch.toNat ∨ w.toNat < 100 → exec (.channelSetGroup p ch w r) s =
            .next (s.setPhase p 0x17 (.incremental { i with bad := true }))) ∧
          ∀ c : ChannelId, ch.toNat = c.val → 100 ≤ w.toNat → exec (.channelSetGroup p ch w r) s =
            .next (s.modChannel c fun x =>
              if x.state = .idle then { x with current := ⟨w.toNat, r.toNat⟩, pending := none }
              else { x with pending := some ⟨w.toNat, r.toNat⟩ }))

/-- R94, R100, R101, R172: the guard input opens: every pulse is cut short, GUARD_TRIP is reported with the
number of channels it cut, and GUARD is set; it closes: no channel and no cause changes. That an opening of an
open guard changes nothing is the model's choice (log entry 8). -/
def Obligations.TheGuardOpensAndCloses : Prop :=
  ∀ s : State,
    (s.guardOpen = true → exec .guardOpen s = .next s) ∧
    (s.guardOpen = false → ∃ t : State, exec .guardOpen s =
        .next ((t.lineFault .guardTrip 0 0 (s.fire.channels.toList.countP Channel.isPulsing)).setHolds
          { s.holds with guardCause := true }) ∧
      s.unchangedBut [.fire, .guardInput] t ∧ t.guardOpen = true ∧ t.fire.schedule = s.fire.schedule ∧
      (∀ c, t.channel c =
        match (s.channel c).state with
        | .pulsing _ => if (s.channel c).current.recovery = 0 then
            ⟨.idle, (s.channel c).pending.getD (s.channel c).current, none⟩
          else { s.channel c with state := .recovering (s.channel c).current.recovery }
        | .idle => s.channel c
        | .recovering _ => s.channel c) ∧
      ∀ c, t.fireOutput c = false) ∧
    exec .guardClose s = .next { s with guardOpen := false } ∧
    ∀ c, s.fireOutput c = true ↔ (∃ left, (s.channel c).state = .pulsing left) ∧ s.guardOpen = false

/-! ## Orders, bins and the sort -/

/-- R138, R139: a run of the arbiter binds until no order bin is FREE or no order needs one: the lowest-numbered FREE
bin to the order of the highest priority, and among those the earliest; then it goes on from there. With one FREE bin,
what the run comes to as a whole. -/
def Obligations.TheBinArbiterBinds : Prop :=
  ∀ s : State,
    (∀ o : Order, o.needsBin = true ↔ (o.state = .queued ∨ o.state = .active) ∧ o.bins.length < o.maxBins ∧
      o.labelled + o.opened < o.ordered) ∧
    ((∀ b, (s.bin b).state ≠ .free) ∨ (∀ o ∈ s.book, o.needsBin = false) → s.runArbiter = s) ∧
    ((∀ b, (s.runArbiter.bin b).state ≠ .free) ∨ ∀ o ∈ s.runArbiter.book, o.needsBin = false) ∧
    (∀ (b : BinId) (before after : List Order) (o : Order), s.book = before ++ o :: after → o.needsBin = true →
      (∀ x ∈ before, x.needsBin = true → x.priority < o.priority) →
      (∀ x ∈ after, x.needsBin = true → x.priority ≤ o.priority) →
      (s.bin b).state = .free → (∀ c, c < b → (s.bin c).state ≠ .free) →
      ∀ counted : State, counted = State.modOrder (State.raise (s.modBin b fun _ => ⟨.opened, some o.id, 0, 0,
          ⟨0, 0, Vector.replicate 8 0, Vector.replicate 8 0, 0, 0, 0, 0⟩, false, []⟩) .binState 1 0 0 b.val) o.id
          (fun x => { x with bins := x.bins ++ [b], opened := x.opened + 1 }) →
        s.runArbiter = State.runArbiter (if o.state = .queued then
          (counted.modOrder o.id fun x => { x with state := .active }).raise .orderState 1 0 0 o.id.toNat
        else counted)) ∧
    ∀ (b : BinId) (before after : List Order) (o : Order), s.withinBounds → s.book = before ++ o :: after →
      o.needsBin = true → (∀ x ∈ before, x.needsBin = true → x.priority < o.priority) →
      (∀ x ∈ after, x.needsBin = true → x.priority ≤ o.priority) →
      (∀ c, (s.bin c).state = .free ↔ c = b) →
      s.unchangedBut binBlocks s.runArbiter ∧
      s.runArbiter.bin b = ⟨.opened, some o.id, 0, 0,
        ⟨0, 0, Vector.replicate 8 0, Vector.replicate 8 0, 0, 0, 0, 0⟩, false, []⟩ ∧
      (∀ c, c ≠ b → s.runArbiter.bin c = s.bin c) ∧
      s.runArbiter.book = before ++ { o with
        state := .active, bins := o.bins ++ [b], opened := o.opened + 1 } :: after ∧
      s.runArbiter.ports = (if o.state = .queued then
        (s.raise .binState 1 0 0 b.val).raise .orderState 1 0 0 o.id.toNat
      else s.raise .binState 1 0 0 b.val).ports

/-- R125, R130: ORDER_PUT: its layout, its tests in their order, and its effect. -/
def Obligations.OrdersArePut : Prop :=
  ∀ (p : PortId) (s : State) (i1 i0 g pr a1 a0 z1 z0 t1 t0 l1 l0 sh b1 b0 pri mb : Byte), s.ready p .orderPut →
    ∀ (bs : List Byte) (o : Order),
      bs = [i1, i0, g, pr, a1, a0, z1, z0, t1, t0, l1, l0, sh, b1, b0, pri, mb] →
      o = ⟨BitVec.ofNat 16 (256 * i1.toNat + i0.toNat), g, pr.toNat, 256 * a1.toNat + a0.toNat,
        256 * z1.toNat + z0.toNat, 256 * t1.toNat + t0.toNat, 256 * l1.toNat + l0.toNat, sh.toNat,
        256 * b1.toNat + b0.toNat, pri.toNat, mb.toNat, .queued, 0, 0, []⟩ →
      (32 ≤ s.book.length → exec (.orderPut p (.ends bs)) s = .next (s.setResult p .full)) ∧
      (s.book.length < 32 → (∃ x ∈ s.book, x.id = o.id) →
        exec (.orderPut p (.ends bs)) s = .next (s.setResult p .duplicate)) ∧
      (s.book.length < 32 → (∀ x ∈ s.book, x.id ≠ o.id) →
        (o.id = 0 ∨ g = 0 ∨ 7 < o.profile ∨ o.bandMax ≤ o.bandMin ∨ o.target = 0 ∨ 999 < o.target ∨
            100 < o.longShare ∨ o.ordered = 0 ∨ 9999 < o.ordered ∨ 7 < o.priority ∨ o.maxBins = 0 ∨ 4 < o.maxBins →
          exec (.orderPut p (.ends bs)) s = .next (s.setResult p .badField)) ∧
        (o.id ≠ 0 ∧ g ≠ 0 ∧ o.profile ≤ 7 ∧ o.bandMin < o.bandMax ∧ 1 ≤ o.target ∧ o.target ≤ 999 ∧
            o.longShare ≤ 100 ∧ 1 ≤ o.ordered ∧ o.ordered ≤ 9999 ∧ o.priority ≤ 7 ∧ 1 ≤ o.maxBins ∧ o.maxBins ≤ 4 →
          exec (.orderPut p (.ends bs)) s = .next
            (((State.raise { s with book := s.book ++ [o] } .orderState 0 0 0 o.id.toNat).runArbiter).setResult p
              .ok)))

/-- R129, R132 to R136, Table 7-4: the five commands that name an order, in every order state. -/
def Obligations.OrderCommandsActOnTheirOrder : Prop :=
  ∀ (p : PortId) (s : State) (hi lo n1 n0 : Byte) (i : OrderId) (n : Nat),
    i = BitVec.ofNat 16 (256 * hi.toNat + lo.toNat) → n = 256 * n1.toNat + n0.toNat →
    ∀ frame : Cmd → List Byte, (∀ c, frame c = if c = .orderAdd then [hi, lo, n1, n0] else [hi, lo]) →
    (∀ c ∈ [Cmd.orderSuspend, .orderResume, .orderAdd, .orderCancel, .orderRetire], s.ready p c →
      (i = 0 → exec (frameInstr c p (.ends (frame c))) s = .next (s.setResult p .badField)) ∧
      (i ≠ 0 → (∀ x ∈ s.book, x.id ≠ i) →
        exec (frameInstr c p (.ends (frame c))) s = .next (s.setResult p .notFound))) ∧
    ∀ o : Order, i ≠ 0 → s.order i = some o →
      ∀ enters : OrderState → State, (∀ st, enters st = (s.modOrder i fun x =>
          { x with state := st }).raise .orderState st.code 0 0 i.toNat) →
        (s.ready p .orderSuspend → exec (.orderSuspend p (.ends [hi, lo])) s = .next
          (if o.state = .queued ∨ o.state = .active then (enters .suspended).setResult p .ok
          else s.setResult p .state)) ∧
        (s.ready p .orderResume → exec (.orderResume p (.ends [hi, lo])) s = .next
          (if o.state = .suspended then
            ((enters (if o.bins = [] then .queued else .active)).runArbiter).setResult p .ok
          else s.setResult p .state)) ∧
        (s.ready p .orderAdd → exec (.orderAdd p (.ends [hi, lo, n1, n0])) s = .next
          (if n = 0 ∨ 9999 < o.ordered + n then s.setResult p .badField
          else if o.state = .queued ∨ o.state = .active ∨ o.state = .suspended then
            ((s.modOrder i fun x => { x with ordered := x.ordered + n }).runArbiter).setResult p .ok
          else s.setResult p .state)) ∧
        (s.ready p .orderCancel → exec (.orderCancel p (.ends [hi, lo])) s = .next
          (if o.state = .cancelling ∨ o.state = .complete ∨ o.state = .cancelled then s.setResult p .state
          else if o.bins = [] then (enters .cancelled).setResult p .ok
          else ((o.bins.filter fun b => decide ((s.bin b).state = .opened)).foldl State.drainBin
            (enters .cancelling)).setResult p .ok)) ∧
        (s.ready p .orderRetire → ∃ t, exec (.orderRetire p (.ends [hi, lo])) s = .next t ∧
          (o.state ≠ .complete → o.state ≠ .cancelled → t = s.setResult p .state) ∧
          (o.state = .complete ∨ o.state = .cancelled → t = { s.setResult p .ok with book := t.book } ∧
            ∃ before after, s.book = before ++ o :: after ∧ t.book = before ++ after))

/-- R140, R155, R158, R159: a bin that drains, one that is given back to its order, and a lowered commitment, which
reopens a CLOSING bin (or drains it, if its order is being cancelled) and settles a DRAINING one whose list it has
emptied: with no piece dropped the bin is given back, else it waits for a PARTIAL label. -/
def Obligations.BinsDrainAndAreGivenBack : Prop :=
  ∀ (s : State) (b : BinId),
    (∀ d : State, d = (s.modBin b fun x => { x with state := .draining }).raise .binState 5 0 0 b.val →
      s.drainBin b = if (s.bin b).expected ≠ [] then d else if (s.bin b).dropped = 0 then d.giveBack b 1
        else d.enterLabelWait b true) ∧
    (∀ (i : OrderId) (o : Order) (falls : Nat), (s.bin b).order = some i → s.order i = some o → o.bins.Nodup →
      ∀ (left : List BinId) (freed : State), left = o.bins.filter (fun c => decide (c ≠ b)) →
        freed = (State.raise (s.modBin b fun _ => ⟨.free, none, 0, 0,
          ⟨0, 0, Vector.replicate 8 0, Vector.replicate 8 0, 0, 0, 0, 0⟩, false, []⟩) .binState 0 0 0 b.val).modOrder i
            (fun x => { x with opened := x.opened - falls, bins := x.bins.erase b }) →
        s.giveBack b falls =
          if left ≠ [] then freed.runArbiter
          else if o.state = .cancelling then (freed.enterOrder i .cancelled).runArbiter
          else if o.state = .active ∨ o.state = .suspended then (freed.enterOrder i .complete).runArbiter
          else freed.runArbiter) ∧
    (∀ isPartial : Bool, ∀ w : State,
      w = ((s.modBin b fun x => { x with isPartial := isPartial, state := .labelWait }).raise .binState 3 0 0 b.val) →
      s.enterLabelWait b isPartial = State.compose { w with bnc.waitList := s.bnc.waitList ++ [b] }) ∧
    ∀ (n : StripNum) (k : Nat) (e : Expected), s.expectedOf (gateOfBin b) n k = some e →
      ∀ lowered : State, lowered = (s.modBin b fun x =>
          { x with
            expected := x.expected.eraseP fun y => decide (y.number = n ∧ y.index = k)
            shortCommitted := if e.short then x.shortCommitted - 1 else x.shortCommitted }) →
        ((s.bin b).state ≠ .closing → (s.bin b).state ≠ .draining → s.lower (gateOfBin b) n k = lowered) ∧
        ((s.bin b).state = .closing → ∀ o, s.boundOrder b = some o → s.lower (gateOfBin b) n k =
          if o.state = .cancelling then lowered.drainBin b
          else (lowered.modBin b fun x => { x with state := .opened }).raise .binState 1 0 0 b.val) ∧
        ((s.bin b).state = .draining → s.lower (gateOfBin b) n k =
          if (s.bin b).expected.eraseP (fun y => decide (y.number = n ∧ y.index = k)) ≠ [] then lowered
          else if (s.bin b).dropped = 0 then lowered.giveBack b 1
          else lowered.enterLabelWait b true)

/-- R145, R163: BIN_SERVICE and BIN_CLEARED: who may issue them, their refusals and their effects. -/
def Obligations.BinServiceAndBinCleared : Prop :=
  (∀ r : Role, (r.mayIssue .binService = true ↔ r = .supervisor) ∧
    (r.mayIssue .binCleared = true ↔ r = .supervisor ∨ r = .dispatch)) ∧
  ∀ (p : PortId) (s : State) (bin service : Byte),
    (∀ bs : List Byte, s.ready p .binService → bs.length ≠ 2 →
      exec (.binService p (.ends bs)) s = .next (s.setResult p .length)) ∧
    (s.ready p .binService → 10 ≤ bin.toNat ∨ 2 ≤ service.toNat →
      exec (.binService p (.ends [bin, service])) s = .next (s.setResult p .badField)) ∧
    (s.ready p .binCleared → 10 ≤ bin.toNat →
      exec (.binCleared p (.ends [bin])) s = .next (s.setResult p .badField)) ∧
    ∀ b : BinId, bin.toNat = b.val →
      (s.ready p .binService →
        exec (.binService p (.ends [bin, 0])) s = .next
          (if (s.bin b).state = .free then
            ((s.modBin b fun x => { x with state := .outOfService }).raise .binState 6 0 0 b.val).setResult p .ok
          else s.setResult p .state) ∧
        exec (.binService p (.ends [bin, 1])) s = .next
          (if (s.bin b).state = .outOfService then
            (((s.modBin b fun x => { x with state := .free }).raise .binState 0 0 0 b.val).runArbiter).setResult p .ok
          else s.setResult p .state)) ∧
      (s.ready p .binCleared →
        ((s.bin b).state ≠ .labelled → exec (.binCleared p (.ends [bin])) s = .next (s.setResult p .state)) ∧
        ((s.bin b).state = .labelled → ∀ i o, (s.bin b).order = some i → s.order i = some o →
          exec (.binCleared p (.ends [bin])) s = .next
            (if (o.state = .active ∨ o.state = .suspended) ∧ o.labelled + o.opened < o.ordered then
              (((s.modBin b fun _ => ⟨.opened, some i, 0, 0,
                ⟨0, 0, Vector.replicate 8 0, Vector.replicate 8 0, 0, 0, 0, 0⟩, false, []⟩).raise .binState 1 0 0
                b.val).modOrder i fun x => { x with opened := x.opened + 1 }).setResult p .ok
            else (s.giveBack b 0).setResult p .ok)))

/-- R20, R147 to R151: the sort arrival: a piece with a reason goes to the reject bin while it has room, one
without to the eligible bin that the three tests choose, and it is ASSIGNED with a gate stroke, or RIDING when
there is no bin or no schedule space. That any other arrival changes nothing is the model's choice (log entry 6). -/
def Obligations.PiecesAreSorted : Prop :=
  ∀ (n : StripNum) (k : Nat) (s : State),
    ((∀ r, s.piece n k = some r → r.state ≠ .onBelt ∨
        r.lead + BitVec.ofNat 24 s.track.marks.sort ≠ s.track.position) →
      exec (.sortArrival n k) s = .next s) ∧
    ∀ r, s.piece n k = some r → r.state = .onBelt → r.lead + BitVec.ofNat 24 s.track.marks.sort = s.track.position →
      ∀ (riding : State) (assigned : GateId → List FireEntry → State)
          (room : Bool) (eligibleFor : BinId → Order → Prop),
        riding = (s.modPiece n k fun x => { x with state := .riding }) →
        (∀ b schedule, assigned b schedule =
          State.modPiece { s with fire.schedule := schedule } n k fun x => { x with state := .assigned b }) →
        (room = true ↔ s.fire.schedule.length < 64) →
        (∀ b o, eligibleFor b o ↔ (s.bin b).order = some o.id ∧ s.order o.id = some o ∧ (s.bin b).state = .opened ∧
          o.state = .active ∧ (∃ g : Fin 8, r.grade = .commercial g ∧ o.gradeSet.getLsbD g.val = true) ∧
          r.profile = o.profile ∧ o.bandMin ≤ r.finalLength ∧ r.finalLength ≤ o.bandMax ∧
          (s.bin b).dropped + (s.bin b).expected.length < o.target ∧
          (o.longThreshold ≤ r.finalLength ∨
            (s.bin b).shortCommitted + 1 ≤ o.target * (100 - o.longShare) / 100)) →
        ∀ stroke : GateId → FireEntry, (∀ b, stroke b =
          ⟨r.lead + BitVec.ofNat 24 s.track.marks.gates[b], ⟨b.val + 3, by omega⟩, n, k, .gate⟩) →
        ∀ ends : GateId → Pos, (∀ b, ends b =
          r.lead + BitVec.ofNat 24 (s.track.marks.gates[b] + s.bnc.dropWindow)) →
        ∀ refused : GateId → State, (∀ b, refused b =
          (riding.lineFault .scheduleFull n k (b.val + 3)).traceEntry r.traced .unallocated 0 k) →
        ((r.reason ≠ none ∧ s.bnc.rejectMax ≤ s.bnc.reject.dropped + s.bnc.reject.expected.length) ∨
            (r.reason = none ∧ ∀ b o, ¬ eligibleFor b o) →
          exec (.sortArrival n k) s = .next (riding.traceEntry r.traced .unallocated 0 k)) ∧
        (r.reason ≠ none → s.bnc.reject.dropped + s.bnc.reject.expected.length < s.bnc.rejectMax →
          exec (.sortArrival n k) s = .next
            (if room then State.traceEntry { assigned 10 (insertEntry s.distance (stroke 10) s.fire.schedule) with
              bnc.reject := ⟨s.bnc.reject.dropped, s.bnc.reject.expected ++ [⟨n, k, ends 10, false⟩]⟩ }
              r.traced .sorted 10 k
            else refused 10)) ∧
        ∀ b o, r.reason = none → eligibleFor b o →
          (∀ c x, eligibleFor c x → c ≠ b → x.priority < o.priority ∨ (x.priority = o.priority ∧
            ((s.bin c).committed < (s.bin b).committed ∨ ((s.bin c).committed = (s.bin b).committed ∧ b < c)))) →
          (room = false → exec (.sortArrival n k) s = .next (refused (gateOfBin b))) ∧
          (room = true → ∀ joined : State, joined = ((assigned (gateOfBin b)
              (insertEntry s.distance (stroke (gateOfBin b)) s.fire.schedule)).modBin b fun x =>
              { x with
                expected := x.expected ++ [⟨n, k, ends (gateOfBin b), decide (r.finalLength < o.longThreshold)⟩]
                shortCommitted := if r.finalLength < o.longThreshold then x.shortCommitted + 1
                  else x.shortCommitted }) →
            exec (.sortArrival n k) s = .next (State.traceEntry
              (if (s.bin b).committed + 1 = o.target then
                (joined.modBin b fun x => { x with state := .closing }).raise .binState 2 0 0 b.val
              else joined) r.traced .sorted b.val k))

/-- R26, R153, R154, R158, R159, R164: a pulse on a drop eye: STRAY_DROP on an empty list; else the oldest
expected piece has dropped. -/
def Obligations.DropEyePulses : Prop :=
  ∀ s : State,
    (∀ b, s.expected b = [] → ∀ u, u = s.lineFault .strayDrop 0 0 b.val →
      exec (.dropEyePulse b) s = .next (u.setHolds { s.holds with stray := true })) ∧
    (∀ e rest r, s.bnc.reject.expected = e :: rest → s.piece e.number e.index = some r →
      ∀ out : State, out = State.afterPieceRemoval { s with
          bnc.reject := ⟨s.bnc.reject.dropped + 1, rest⟩
          track.belt := s.track.belt.erase (.piece r) } r .dropped →
        exec (.dropEyePulse 10) s = .next (if s.bnc.rejectMax ≤ s.bnc.reject.dropped + 1 then
          out.setHolds { s.holds with rejectFull := true } else out)) ∧
    ∀ (b : BinId) e rest r o, (s.bin b).expected = e :: rest → s.piece e.number e.index = some r →
      s.boundOrder b = some o →
      ∀ (place : Nat) (x : OrderBin) (counted out : State),
        place = (r.finalLength - o.bandMin) * 8 / (o.bandMax - o.bandMin + 1) →
        x = { s.bin b with
          expected := rest
          dropped := (s.bin b).dropped + 1
          bundle :=
            { totalLength := (s.bin b).bundle.totalLength + r.finalLength
              totalArea := (s.bin b).bundle.totalArea + r.finalLength * r.width / 400
              grades := Vector.ofFn fun g =>
                (s.bin b).bundle.grades[g] + (if r.grade = .commercial g then 1 else 0)
              histogram := Vector.ofFn fun g =>
                (s.bin b).bundle.histogram[g] + (if place = g.val then 1 else 0)
              laneA := (s.bin b).bundle.laneA + (if r.lane = .a then 1 else 0)
              laneB := (s.bin b).bundle.laneB + (if r.lane = .b then 1 else 0)
              firstStrip := if (s.bin b).dropped = 0 then r.number else (s.bin b).bundle.firstStrip
              lastStrip := r.number } } →
        counted = (s.modBin b fun _ => x) →
        out = State.afterPieceRemoval { counted with track.belt := s.track.belt.erase (.piece r) } r .dropped →
        exec (.dropEyePulse (gateOfBin b)) s = .next
          (if rest ≠ [] then out
          else if (s.bin b).state = .closing then out.enterLabelWait b false
          else if (s.bin b).state = .draining then out.enterLabelWait b true
          else out)

/-- R20, R26, R151, R155, R156, R165: window ends make misdrops, and pieces leave at the runout. That a window end or
a runout arrival that is not due changes nothing is the model's choice (log entry 6). -/
def Obligations.MisdropsAndRunouts : Prop :=
  ∀ (s : State) (n : StripNum) (k : Nat),
    (∀ b, (∀ e, s.expectedOf b n k = some e → e.windowEnd ≠ s.track.position) →
      exec (.windowEnd b n k) s = .next s) ∧
    (∀ b e r, s.expectedOf b n k = some e → e.windowEnd = s.track.position → s.piece n k = some r →
      exec (.windowEnd b n k) s = .next
        ((((s.lower b n k).modPiece n k fun x => { x with state := .riding }).traceEntry r.traced .misdrop 0
          k).lineFault .misdrop n k b.val)) ∧
    ((∀ r, s.piece n k = some r → r.lead + BitVec.ofNat 24 s.track.marks.runout ≠ s.track.position) →
      exec (.runoutArrival n k) s = .next s) ∧
    ∀ r, s.piece n k = some r → r.lead + BitVec.ofNat 24 s.track.marks.runout = s.track.position →
      ∀ out : State, out = State.afterPieceRemoval { s with track.belt := s.track.belt.erase (.piece r) } r .runout →
        ∃ t, exec (.runoutArrival n k) s = .next t ∧
          t.bnc.runoutCount = min 65535 (s.bnc.runoutCount + 1) ∧
          (min 65535 (s.bnc.runoutCount + 1) < s.bnc.runoutMax →
            t = { out with bnc.runoutCount := min 65535 (s.bnc.runoutCount + 1) }) ∧
          (s.bnc.runoutMax ≤ min 65535 (s.bnc.runoutCount + 1) →
            t = State.setHolds { out with bnc.runoutCount := min 65535 (s.bnc.runoutCount + 1) }
              { s.holds with runoutFull := true })

/-- R21, R107, R155, R193, R194: what a removal does to the rest of the part: the record's schedule entries are
cancelled, an ASSIGNED piece's commitment is lowered unless it has dropped, a traced record's trace is noted and
completed with its last record, and the lanes test their release conditions. -/
def Obligations.RemovalsReachTheirOwners : Prop :=
  ∀ (s : State) (cause : Cause),
    ∀ kind : TraceKind, kind = (match cause with
      | .removed => .removed | .laneCleared => .removed | .missing => .removed
      | .dropped => .dropped | .runout => .runout) →
    ∀ detail : Nat, detail = (match cause with
      | .removed => 0 | .laneCleared => 1 | .missing => 2 | .dropped => 0 | .runout => 0) →
    ∀ audited : State → Bool → Nat → State,
      (∀ u traced k noted, noted = u.traceEntry traced kind detail k →
        audited u traced k =
          if traced = true ∧ noted.tracedCount = 0 ∧ noted.audit.trace = .inProgress then
            State.raise { noted with audit.trace := .held } .traceDone
              (128 * noted.audit.truncated.toNat + noted.audit.entries.length % 64) noted.audit.strip 0
              (laneCode noted.audit.lane)
          else noted) →
    (∀ r : StripRec, s.afterStripRemoval r cause =
      (audited { s with
        fire.schedule := s.fire.schedule.filter fun e => decide (¬ (e.number = r.number ∧ e.index = 0)) } r.traced 0).retest) ∧
    ∀ r : PieceRec, ∀ cancelled : State, cancelled = { s with
        fire.schedule := s.fire.schedule.filter fun e => decide (¬ (e.number = r.number ∧ e.index = r.index)) } →
      s.afterPieceRemoval r cause = State.retest (audited
        (match r.state with
        | .assigned b => if cause = .dropped then cancelled else cancelled.lower b r.number r.index
        | .onBelt => cancelled
        | .riding => cancelled) r.traced r.index)

/-! ## Limits -/

/-- R19, R56, R60, R61, R69, R70, R87, R111, R146, R164, R165, R190, Table 10-6: the groups of LIMITS_SET: each
against its range and conditions, and what its application sets off when its last byte has arrived. -/
def Obligations.LimitsAreSet : Prop :=
  ∀ (p : PortId) (s : State),
    (s.ready p .limitsSet →
      exec (.limitsSet p .opens) s = .next (s.setPhase p 0x04 (.incremental ⟨.noHeader, [], false, none⟩)) ∧
      exec (.limitsSet p (.ends [])) s = .next (s.setResult p .ok)) ∧
    ∀ (i : Incremental) (value : BitVec 16), (s.port p).frame = some ⟨0x04, .incremental i⟩ →
      i.header = .noHeader → i.buf = [] →
      (∀ ident v1 v0 : Byte, exec (.limitsSet p (.bytes [ident, v1, v0])) s =
        exec (.limitsSetGroup p ident (BitVec.ofNat 16 (256 * v1.toNat + v0.toNat))) s) ∧
      ∀ v : Nat, v = value.toNat →
      ∀ row : Byte → Prop → (State → State) → Prop,
        (∀ ident good applied, row ident good applied ↔
          (good → exec (.limitsSetGroup p ident value) s = .next ((applied (s.setPhase p 0x04 (.incremental
            { i with buf := [ident, BitVec.ofNat 8 (v / 256)] }))).setPhase p 0x04 (.incremental i))) ∧
          (¬ good → exec (.limitsSetGroup p ident value) s =
            .next (s.setPhase p 0x04 (.incremental { i with bad := true })))) →
        row 0 (v ≤ 2) (fun u => State.arbitrate { u with
          merge.policy := if v = 0 then .primaryA else if v = 1 then .primaryB else .alternate }) ∧
        row 1 (v ≤ 4000) (fun u => State.arbitrate { u with
          merge.mergeGap := v
          merge.gapOpen := u.merge.gapOpen || (decide (v < u.merge.mergeGap) &&
            decide ((u.track.position - (u.merge.lastGrant + BitVec.ofNat 24 v)).toNat < 8388608)) }) ∧
        row 2 (100 ≤ v ∧ v ≤ 60000) (fun u => State.testTransit { u with merge.transitMax := v }) ∧
        row 3 (200 ≤ v ∧ v ≤ 20000 ∧ v < s.gauge.maxStrip) (fun u => { u with gauge.minStrip := v }) ∧
        row 4 (400 ≤ v ∧ v ≤ 24000 ∧ s.gauge.minStrip < v ∧ v < s.track.marks.deadline ∧
          s.track.marks.trim + v ≤ s.track.marks.endmatch ∧ s.track.marks.endmatch + v ≤ s.track.marks.sort)
          (fun u => State.testCutOff { u with gauge.maxStrip := v }) ∧
        row 5 (200 ≤ v ∧ v ≤ 8000) (fun u => { u with grading.segMin := v }) ∧
        row 6 (v ≤ 500) (fun u => { u with grading.widthTol := v }) ∧
        row 7 (v ≤ 500) (fun u => { u with grading.thickTol := v }) ∧
        row 8 (v ≤ 1000 ∧ v ≤ s.grading.moistMax) (fun u => { u with grading.moistMin := v }) ∧
        row 9 (v ≤ 1000 ∧ s.grading.moistMin ≤ v) (fun u => { u with grading.moistMax := v }) ∧
        row 10 (v ≤ 200 ∧ ∀ e ∈ s.fire.schedule, e.purpose ≠ .tongue ∧ e.purpose ≠ .groove)
          (fun u => { u with cut.emTrim := v }) ∧
        row 11 (200 ≤ v ∧ v ≤ 8000) (fun u => { u with cut.emMin := v }) ∧
        row 12 (100 ≤ v ∧ v ≤ 8000 ∧ s.track.marks.gates[10] + v < s.track.marks.runout)
          (fun u => { u with bnc.dropWindow := v }) ∧
        row 13 (1 ≤ v ∧ v ≤ 2000) (fun u => if v ≤ u.bnc.reject.dropped then
          State.setHolds { u with bnc.rejectMax := v } { u.holds with rejectFull := true }
          else { u with bnc.rejectMax := v }) ∧
        row 14 (1 ≤ v ∧ v ≤ 500) (fun u => if v ≤ u.bnc.runoutCount then
          State.setHolds { u with bnc.runoutMax := v } { u.holds with runoutFull := true }
          else { u with bnc.runoutMax := v }) ∧
        ∀ ident : Byte, 15 ≤ ident.toNat → row ident False id
end

