-- ==== Sys2Proof/Laws/State.lean ====
section
/-! SUPPORT. What each named update of State leaves alone, one lemma for each field, and what the accesses
by lane, port, bin and channel read after one. -/

namespace Sys2Proof.Machine

/-! ## Access after an update -/

@[simp] theorem PerLane.get_set {α : Type} (x : PerLane α) (l m : Lane) (v : α) :
    (x.set l v).get m = if m = l then v else x.get m := by
  cases l <;> cases m <;> rfl

@[simp] theorem State.lane_modLane (s : State) (l m : Lane) (f : LaneCtl → LaneCtl) :
    (s.modLane l f).lane m = if m = l then f (s.lane l) else s.lane m := by
  simp [State.lane, State.modLane]

@[simp] theorem State.queue_setQueue (s : State) (l m : Lane) (q : List StripRec) :
    (s.setQueue l q).queue m = if m = l then q else s.queue m := by
  simp [State.queue, State.setQueue]

@[simp] theorem State.passedOver_setPassedOver (s : State) (l m : Lane) (v : Bool) :
    (s.setPassedOver l v).passedOver m = if m = l then v else s.passedOver m := by
  simp [State.passedOver, State.setPassedOver]

@[simp] theorem State.port_modPort (s : State) (p q : PortId) (f : Port → Port) :
    (s.modPort p f).port q = if q = p then f (s.port p) else s.port q := by
  by_cases h : q = p
  · subst h; simp [State.port, State.modPort]
  · have h' : ¬ (p.val = q.val) := fun e => h (Fin.ext e.symm)
    simp [State.port, State.modPort, h, h']

@[simp] theorem State.bin_modBin (s : State) (b c : BinId) (f : OrderBin → OrderBin) :
    (s.modBin b f).bin c = if c = b then f (s.bin b) else s.bin c := by
  by_cases h : c = b
  · subst h; simp [State.bin, State.modBin]
  · have h' : ¬ (b.val = c.val) := fun e => h (Fin.ext e.symm)
    simp [State.bin, State.modBin, h, h']

@[simp] theorem State.channel_modChannel (s : State) (c d : ChannelId) (f : Channel → Channel) :
    (s.modChannel c f).channel d = if d = c then f (s.channel c) else s.channel d := by
  by_cases h : d = c
  · subst h; simp [State.channel, State.modChannel]
  · have h' : ¬ (c.val = d.val) := fun e => h (Fin.ext e.symm)
    simp [State.channel, State.modChannel, h, h']

/-! ## The fields an update leaves alone -/

/-! modLane -/

@[simp] theorem State.modLane_track (s : State) (l : Lane) (f : LaneCtl → LaneCtl) : (s.modLane l f).track = s.track := rfl
@[simp] theorem State.modLane_merge (s : State) (l : Lane) (f : LaneCtl → LaneCtl) : (s.modLane l f).merge = s.merge := rfl
@[simp] theorem State.modLane_gauge (s : State) (l : Lane) (f : LaneCtl → LaneCtl) : (s.modLane l f).gauge = s.gauge := rfl
@[simp] theorem State.modLane_grading (s : State) (l : Lane) (f : LaneCtl → LaneCtl) : (s.modLane l f).grading = s.grading := rfl
@[simp] theorem State.modLane_fire (s : State) (l : Lane) (f : LaneCtl → LaneCtl) : (s.modLane l f).fire = s.fire := rfl
@[simp] theorem State.modLane_cut (s : State) (l : Lane) (f : LaneCtl → LaneCtl) : (s.modLane l f).cut = s.cut := rfl
@[simp] theorem State.modLane_book (s : State) (l : Lane) (f : LaneCtl → LaneCtl) : (s.modLane l f).book = s.book := rfl
@[simp] theorem State.modLane_bnc (s : State) (l : Lane) (f : LaneCtl → LaneCtl) : (s.modLane l f).bnc = s.bnc := rfl
@[simp] theorem State.modLane_holds (s : State) (l : Lane) (f : LaneCtl → LaneCtl) : (s.modLane l f).holds = s.holds := rfl
@[simp] theorem State.modLane_audit (s : State) (l : Lane) (f : LaneCtl → LaneCtl) : (s.modLane l f).audit = s.audit := rfl
@[simp] theorem State.modLane_ports (s : State) (l : Lane) (f : LaneCtl → LaneCtl) : (s.modLane l f).ports = s.ports := rfl
@[simp] theorem State.modLane_guardOpen (s : State) (l : Lane) (f : LaneCtl → LaneCtl) : (s.modLane l f).guardOpen = s.guardOpen := rfl
@[simp] theorem State.modLane_beltRun (s : State) (l : Lane) (f : LaneCtl → LaneCtl) : (s.modLane l f).beltRun = s.beltRun := rfl
@[simp] theorem State.modLane_time (s : State) (l : Lane) (f : LaneCtl → LaneCtl) : (s.modLane l f).time = s.time := rfl
@[simp] theorem State.modLane_choices (s : State) (l : Lane) (f : LaneCtl → LaneCtl) : (s.modLane l f).choices = s.choices := rfl
@[simp] theorem State.modLane_pending (s : State) (l : Lane) (f : LaneCtl → LaneCtl) : (s.modLane l f).pending = s.pending := rfl

/-! setQueue -/

@[simp] theorem State.setQueue_lanes (s : State) (l : Lane) (q : List StripRec) : (s.setQueue l q).lanes = s.lanes := rfl
@[simp] theorem State.setQueue_merge (s : State) (l : Lane) (q : List StripRec) : (s.setQueue l q).merge = s.merge := rfl
@[simp] theorem State.setQueue_gauge (s : State) (l : Lane) (q : List StripRec) : (s.setQueue l q).gauge = s.gauge := rfl
@[simp] theorem State.setQueue_grading (s : State) (l : Lane) (q : List StripRec) : (s.setQueue l q).grading = s.grading := rfl
@[simp] theorem State.setQueue_fire (s : State) (l : Lane) (q : List StripRec) : (s.setQueue l q).fire = s.fire := rfl
@[simp] theorem State.setQueue_cut (s : State) (l : Lane) (q : List StripRec) : (s.setQueue l q).cut = s.cut := rfl
@[simp] theorem State.setQueue_book (s : State) (l : Lane) (q : List StripRec) : (s.setQueue l q).book = s.book := rfl
@[simp] theorem State.setQueue_bnc (s : State) (l : Lane) (q : List StripRec) : (s.setQueue l q).bnc = s.bnc := rfl
@[simp] theorem State.setQueue_holds (s : State) (l : Lane) (q : List StripRec) : (s.setQueue l q).holds = s.holds := rfl
@[simp] theorem State.setQueue_audit (s : State) (l : Lane) (q : List StripRec) : (s.setQueue l q).audit = s.audit := rfl
@[simp] theorem State.setQueue_ports (s : State) (l : Lane) (q : List StripRec) : (s.setQueue l q).ports = s.ports := rfl
@[simp] theorem State.setQueue_guardOpen (s : State) (l : Lane) (q : List StripRec) : (s.setQueue l q).guardOpen = s.guardOpen := rfl
@[simp] theorem State.setQueue_beltRun (s : State) (l : Lane) (q : List StripRec) : (s.setQueue l q).beltRun = s.beltRun := rfl
@[simp] theorem State.setQueue_time (s : State) (l : Lane) (q : List StripRec) : (s.setQueue l q).time = s.time := rfl
@[simp] theorem State.setQueue_choices (s : State) (l : Lane) (q : List StripRec) : (s.setQueue l q).choices = s.choices := rfl
@[simp] theorem State.setQueue_pending (s : State) (l : Lane) (q : List StripRec) : (s.setQueue l q).pending = s.pending := rfl

/-! setPassedOver -/

@[simp] theorem State.setPassedOver_track (s : State) (l : Lane) (v : Bool) : (s.setPassedOver l v).track = s.track := rfl
@[simp] theorem State.setPassedOver_lanes (s : State) (l : Lane) (v : Bool) : (s.setPassedOver l v).lanes = s.lanes := rfl
@[simp] theorem State.setPassedOver_gauge (s : State) (l : Lane) (v : Bool) : (s.setPassedOver l v).gauge = s.gauge := rfl
@[simp] theorem State.setPassedOver_grading (s : State) (l : Lane) (v : Bool) : (s.setPassedOver l v).grading = s.grading := rfl
@[simp] theorem State.setPassedOver_fire (s : State) (l : Lane) (v : Bool) : (s.setPassedOver l v).fire = s.fire := rfl
@[simp] theorem State.setPassedOver_cut (s : State) (l : Lane) (v : Bool) : (s.setPassedOver l v).cut = s.cut := rfl
@[simp] theorem State.setPassedOver_book (s : State) (l : Lane) (v : Bool) : (s.setPassedOver l v).book = s.book := rfl
@[simp] theorem State.setPassedOver_bnc (s : State) (l : Lane) (v : Bool) : (s.setPassedOver l v).bnc = s.bnc := rfl
@[simp] theorem State.setPassedOver_holds (s : State) (l : Lane) (v : Bool) : (s.setPassedOver l v).holds = s.holds := rfl
@[simp] theorem State.setPassedOver_audit (s : State) (l : Lane) (v : Bool) : (s.setPassedOver l v).audit = s.audit := rfl
@[simp] theorem State.setPassedOver_ports (s : State) (l : Lane) (v : Bool) : (s.setPassedOver l v).ports = s.ports := rfl
@[simp] theorem State.setPassedOver_guardOpen (s : State) (l : Lane) (v : Bool) : (s.setPassedOver l v).guardOpen = s.guardOpen := rfl
@[simp] theorem State.setPassedOver_beltRun (s : State) (l : Lane) (v : Bool) : (s.setPassedOver l v).beltRun = s.beltRun := rfl
@[simp] theorem State.setPassedOver_time (s : State) (l : Lane) (v : Bool) : (s.setPassedOver l v).time = s.time := rfl
@[simp] theorem State.setPassedOver_choices (s : State) (l : Lane) (v : Bool) : (s.setPassedOver l v).choices = s.choices := rfl
@[simp] theorem State.setPassedOver_pending (s : State) (l : Lane) (v : Bool) : (s.setPassedOver l v).pending = s.pending := rfl

/-! modPort -/

@[simp] theorem State.modPort_track (s : State) (p : PortId) (f : Port → Port) : (s.modPort p f).track = s.track := rfl
@[simp] theorem State.modPort_lanes (s : State) (p : PortId) (f : Port → Port) : (s.modPort p f).lanes = s.lanes := rfl
@[simp] theorem State.modPort_merge (s : State) (p : PortId) (f : Port → Port) : (s.modPort p f).merge = s.merge := rfl
@[simp] theorem State.modPort_gauge (s : State) (p : PortId) (f : Port → Port) : (s.modPort p f).gauge = s.gauge := rfl
@[simp] theorem State.modPort_grading (s : State) (p : PortId) (f : Port → Port) : (s.modPort p f).grading = s.grading := rfl
@[simp] theorem State.modPort_fire (s : State) (p : PortId) (f : Port → Port) : (s.modPort p f).fire = s.fire := rfl
@[simp] theorem State.modPort_cut (s : State) (p : PortId) (f : Port → Port) : (s.modPort p f).cut = s.cut := rfl
@[simp] theorem State.modPort_book (s : State) (p : PortId) (f : Port → Port) : (s.modPort p f).book = s.book := rfl
@[simp] theorem State.modPort_bnc (s : State) (p : PortId) (f : Port → Port) : (s.modPort p f).bnc = s.bnc := rfl
@[simp] theorem State.modPort_holds (s : State) (p : PortId) (f : Port → Port) : (s.modPort p f).holds = s.holds := rfl
@[simp] theorem State.modPort_audit (s : State) (p : PortId) (f : Port → Port) : (s.modPort p f).audit = s.audit := rfl
@[simp] theorem State.modPort_guardOpen (s : State) (p : PortId) (f : Port → Port) : (s.modPort p f).guardOpen = s.guardOpen := rfl
@[simp] theorem State.modPort_beltRun (s : State) (p : PortId) (f : Port → Port) : (s.modPort p f).beltRun = s.beltRun := rfl
@[simp] theorem State.modPort_time (s : State) (p : PortId) (f : Port → Port) : (s.modPort p f).time = s.time := rfl
@[simp] theorem State.modPort_choices (s : State) (p : PortId) (f : Port → Port) : (s.modPort p f).choices = s.choices := rfl
@[simp] theorem State.modPort_pending (s : State) (p : PortId) (f : Port → Port) : (s.modPort p f).pending = s.pending := rfl

/-! modBin -/

@[simp] theorem State.modBin_track (s : State) (b : BinId) (f : OrderBin → OrderBin) : (s.modBin b f).track = s.track := rfl
@[simp] theorem State.modBin_lanes (s : State) (b : BinId) (f : OrderBin → OrderBin) : (s.modBin b f).lanes = s.lanes := rfl
@[simp] theorem State.modBin_merge (s : State) (b : BinId) (f : OrderBin → OrderBin) : (s.modBin b f).merge = s.merge := rfl
@[simp] theorem State.modBin_gauge (s : State) (b : BinId) (f : OrderBin → OrderBin) : (s.modBin b f).gauge = s.gauge := rfl
@[simp] theorem State.modBin_grading (s : State) (b : BinId) (f : OrderBin → OrderBin) : (s.modBin b f).grading = s.grading := rfl
@[simp] theorem State.modBin_fire (s : State) (b : BinId) (f : OrderBin → OrderBin) : (s.modBin b f).fire = s.fire := rfl
@[simp] theorem State.modBin_cut (s : State) (b : BinId) (f : OrderBin → OrderBin) : (s.modBin b f).cut = s.cut := rfl
@[simp] theorem State.modBin_book (s : State) (b : BinId) (f : OrderBin → OrderBin) : (s.modBin b f).book = s.book := rfl
@[simp] theorem State.modBin_holds (s : State) (b : BinId) (f : OrderBin → OrderBin) : (s.modBin b f).holds = s.holds := rfl
@[simp] theorem State.modBin_audit (s : State) (b : BinId) (f : OrderBin → OrderBin) : (s.modBin b f).audit = s.audit := rfl
@[simp] theorem State.modBin_ports (s : State) (b : BinId) (f : OrderBin → OrderBin) : (s.modBin b f).ports = s.ports := rfl
@[simp] theorem State.modBin_guardOpen (s : State) (b : BinId) (f : OrderBin → OrderBin) : (s.modBin b f).guardOpen = s.guardOpen := rfl
@[simp] theorem State.modBin_beltRun (s : State) (b : BinId) (f : OrderBin → OrderBin) : (s.modBin b f).beltRun = s.beltRun := rfl
@[simp] theorem State.modBin_time (s : State) (b : BinId) (f : OrderBin → OrderBin) : (s.modBin b f).time = s.time := rfl
@[simp] theorem State.modBin_choices (s : State) (b : BinId) (f : OrderBin → OrderBin) : (s.modBin b f).choices = s.choices := rfl
@[simp] theorem State.modBin_pending (s : State) (b : BinId) (f : OrderBin → OrderBin) : (s.modBin b f).pending = s.pending := rfl

/-! modChannel -/

@[simp] theorem State.modChannel_track (s : State) (c : ChannelId) (f : Channel → Channel) : (s.modChannel c f).track = s.track := rfl
@[simp] theorem State.modChannel_lanes (s : State) (c : ChannelId) (f : Channel → Channel) : (s.modChannel c f).lanes = s.lanes := rfl
@[simp] theorem State.modChannel_merge (s : State) (c : ChannelId) (f : Channel → Channel) : (s.modChannel c f).merge = s.merge := rfl
@[simp] theorem State.modChannel_gauge (s : State) (c : ChannelId) (f : Channel → Channel) : (s.modChannel c f).gauge = s.gauge := rfl
@[simp] theorem State.modChannel_grading (s : State) (c : ChannelId) (f : Channel → Channel) : (s.modChannel c f).grading = s.grading := rfl
@[simp] theorem State.modChannel_cut (s : State) (c : ChannelId) (f : Channel → Channel) : (s.modChannel c f).cut = s.cut := rfl
@[simp] theorem State.modChannel_book (s : State) (c : ChannelId) (f : Channel → Channel) : (s.modChannel c f).book = s.book := rfl
@[simp] theorem State.modChannel_bnc (s : State) (c : ChannelId) (f : Channel → Channel) : (s.modChannel c f).bnc = s.bnc := rfl
@[simp] theorem State.modChannel_holds (s : State) (c : ChannelId) (f : Channel → Channel) : (s.modChannel c f).holds = s.holds := rfl
@[simp] theorem State.modChannel_audit (s : State) (c : ChannelId) (f : Channel → Channel) : (s.modChannel c f).audit = s.audit := rfl
@[simp] theorem State.modChannel_ports (s : State) (c : ChannelId) (f : Channel → Channel) : (s.modChannel c f).ports = s.ports := rfl
@[simp] theorem State.modChannel_guardOpen (s : State) (c : ChannelId) (f : Channel → Channel) : (s.modChannel c f).guardOpen = s.guardOpen := rfl
@[simp] theorem State.modChannel_beltRun (s : State) (c : ChannelId) (f : Channel → Channel) : (s.modChannel c f).beltRun = s.beltRun := rfl
@[simp] theorem State.modChannel_time (s : State) (c : ChannelId) (f : Channel → Channel) : (s.modChannel c f).time = s.time := rfl
@[simp] theorem State.modChannel_choices (s : State) (c : ChannelId) (f : Channel → Channel) : (s.modChannel c f).choices = s.choices := rfl
@[simp] theorem State.modChannel_pending (s : State) (c : ChannelId) (f : Channel → Channel) : (s.modChannel c f).pending = s.pending := rfl

/-! modOrder -/

@[simp] theorem State.modOrder_track (s : State) (i : OrderId) (f : Order → Order) : (s.modOrder i f).track = s.track := rfl
@[simp] theorem State.modOrder_lanes (s : State) (i : OrderId) (f : Order → Order) : (s.modOrder i f).lanes = s.lanes := rfl
@[simp] theorem State.modOrder_merge (s : State) (i : OrderId) (f : Order → Order) : (s.modOrder i f).merge = s.merge := rfl
@[simp] theorem State.modOrder_gauge (s : State) (i : OrderId) (f : Order → Order) : (s.modOrder i f).gauge = s.gauge := rfl
@[simp] theorem State.modOrder_grading (s : State) (i : OrderId) (f : Order → Order) : (s.modOrder i f).grading = s.grading := rfl
@[simp] theorem State.modOrder_fire (s : State) (i : OrderId) (f : Order → Order) : (s.modOrder i f).fire = s.fire := rfl
@[simp] theorem State.modOrder_cut (s : State) (i : OrderId) (f : Order → Order) : (s.modOrder i f).cut = s.cut := rfl
@[simp] theorem State.modOrder_bnc (s : State) (i : OrderId) (f : Order → Order) : (s.modOrder i f).bnc = s.bnc := rfl
@[simp] theorem State.modOrder_holds (s : State) (i : OrderId) (f : Order → Order) : (s.modOrder i f).holds = s.holds := rfl
@[simp] theorem State.modOrder_audit (s : State) (i : OrderId) (f : Order → Order) : (s.modOrder i f).audit = s.audit := rfl
@[simp] theorem State.modOrder_ports (s : State) (i : OrderId) (f : Order → Order) : (s.modOrder i f).ports = s.ports := rfl
@[simp] theorem State.modOrder_guardOpen (s : State) (i : OrderId) (f : Order → Order) : (s.modOrder i f).guardOpen = s.guardOpen := rfl
@[simp] theorem State.modOrder_beltRun (s : State) (i : OrderId) (f : Order → Order) : (s.modOrder i f).beltRun = s.beltRun := rfl
@[simp] theorem State.modOrder_time (s : State) (i : OrderId) (f : Order → Order) : (s.modOrder i f).time = s.time := rfl
@[simp] theorem State.modOrder_choices (s : State) (i : OrderId) (f : Order → Order) : (s.modOrder i f).choices = s.choices := rfl
@[simp] theorem State.modOrder_pending (s : State) (i : OrderId) (f : Order → Order) : (s.modOrder i f).pending = s.pending := rfl

/-! modBeltStrip -/

@[simp] theorem State.modBeltStrip_lanes (s : State) (n : StripNum) (f : StripRec → StripRec) : (s.modBeltStrip n f).lanes = s.lanes := rfl
@[simp] theorem State.modBeltStrip_merge (s : State) (n : StripNum) (f : StripRec → StripRec) : (s.modBeltStrip n f).merge = s.merge := rfl
@[simp] theorem State.modBeltStrip_gauge (s : State) (n : StripNum) (f : StripRec → StripRec) : (s.modBeltStrip n f).gauge = s.gauge := rfl
@[simp] theorem State.modBeltStrip_grading (s : State) (n : StripNum) (f : StripRec → StripRec) : (s.modBeltStrip n f).grading = s.grading := rfl
@[simp] theorem State.modBeltStrip_fire (s : State) (n : StripNum) (f : StripRec → StripRec) : (s.modBeltStrip n f).fire = s.fire := rfl
@[simp] theorem State.modBeltStrip_cut (s : State) (n : StripNum) (f : StripRec → StripRec) : (s.modBeltStrip n f).cut = s.cut := rfl
@[simp] theorem State.modBeltStrip_book (s : State) (n : StripNum) (f : StripRec → StripRec) : (s.modBeltStrip n f).book = s.book := rfl
@[simp] theorem State.modBeltStrip_bnc (s : State) (n : StripNum) (f : StripRec → StripRec) : (s.modBeltStrip n f).bnc = s.bnc := rfl
@[simp] theorem State.modBeltStrip_holds (s : State) (n : StripNum) (f : StripRec → StripRec) : (s.modBeltStrip n f).holds = s.holds := rfl
@[simp] theorem State.modBeltStrip_audit (s : State) (n : StripNum) (f : StripRec → StripRec) : (s.modBeltStrip n f).audit = s.audit := rfl
@[simp] theorem State.modBeltStrip_ports (s : State) (n : StripNum) (f : StripRec → StripRec) : (s.modBeltStrip n f).ports = s.ports := rfl
@[simp] theorem State.modBeltStrip_guardOpen (s : State) (n : StripNum) (f : StripRec → StripRec) : (s.modBeltStrip n f).guardOpen = s.guardOpen := rfl
@[simp] theorem State.modBeltStrip_beltRun (s : State) (n : StripNum) (f : StripRec → StripRec) : (s.modBeltStrip n f).beltRun = s.beltRun := rfl
@[simp] theorem State.modBeltStrip_time (s : State) (n : StripNum) (f : StripRec → StripRec) : (s.modBeltStrip n f).time = s.time := rfl
@[simp] theorem State.modBeltStrip_choices (s : State) (n : StripNum) (f : StripRec → StripRec) : (s.modBeltStrip n f).choices = s.choices := rfl
@[simp] theorem State.modBeltStrip_pending (s : State) (n : StripNum) (f : StripRec → StripRec) : (s.modBeltStrip n f).pending = s.pending := rfl

/-! modPieces -/

@[simp] theorem State.modPieces_lanes (s : State) (test : PieceRec → Bool) (f : PieceRec → PieceRec) : (s.modPieces test f).lanes = s.lanes := rfl
@[simp] theorem State.modPieces_merge (s : State) (test : PieceRec → Bool) (f : PieceRec → PieceRec) : (s.modPieces test f).merge = s.merge := rfl
@[simp] theorem State.modPieces_gauge (s : State) (test : PieceRec → Bool) (f : PieceRec → PieceRec) : (s.modPieces test f).gauge = s.gauge := rfl
@[simp] theorem State.modPieces_grading (s : State) (test : PieceRec → Bool) (f : PieceRec → PieceRec) : (s.modPieces test f).grading = s.grading := rfl
@[simp] theorem State.modPieces_fire (s : State) (test : PieceRec → Bool) (f : PieceRec → PieceRec) : (s.modPieces test f).fire = s.fire := rfl
@[simp] theorem State.modPieces_cut (s : State) (test : PieceRec → Bool) (f : PieceRec → PieceRec) : (s.modPieces test f).cut = s.cut := rfl
@[simp] theorem State.modPieces_book (s : State) (test : PieceRec → Bool) (f : PieceRec → PieceRec) : (s.modPieces test f).book = s.book := rfl
@[simp] theorem State.modPieces_bnc (s : State) (test : PieceRec → Bool) (f : PieceRec → PieceRec) : (s.modPieces test f).bnc = s.bnc := rfl
@[simp] theorem State.modPieces_holds (s : State) (test : PieceRec → Bool) (f : PieceRec → PieceRec) : (s.modPieces test f).holds = s.holds := rfl
@[simp] theorem State.modPieces_audit (s : State) (test : PieceRec → Bool) (f : PieceRec → PieceRec) : (s.modPieces test f).audit = s.audit := rfl
@[simp] theorem State.modPieces_ports (s : State) (test : PieceRec → Bool) (f : PieceRec → PieceRec) : (s.modPieces test f).ports = s.ports := rfl
@[simp] theorem State.modPieces_guardOpen (s : State) (test : PieceRec → Bool) (f : PieceRec → PieceRec) : (s.modPieces test f).guardOpen = s.guardOpen := rfl
@[simp] theorem State.modPieces_beltRun (s : State) (test : PieceRec → Bool) (f : PieceRec → PieceRec) : (s.modPieces test f).beltRun = s.beltRun := rfl
@[simp] theorem State.modPieces_time (s : State) (test : PieceRec → Bool) (f : PieceRec → PieceRec) : (s.modPieces test f).time = s.time := rfl
@[simp] theorem State.modPieces_choices (s : State) (test : PieceRec → Bool) (f : PieceRec → PieceRec) : (s.modPieces test f).choices = s.choices := rfl
@[simp] theorem State.modPieces_pending (s : State) (test : PieceRec → Bool) (f : PieceRec → PieceRec) : (s.modPieces test f).pending = s.pending := rfl

/-! modPiece -/

@[simp] theorem State.modPiece_lanes (s : State) (n : StripNum) (k : Nat) (f : PieceRec → PieceRec) : (s.modPiece n k f).lanes = s.lanes := rfl
@[simp] theorem State.modPiece_merge (s : State) (n : StripNum) (k : Nat) (f : PieceRec → PieceRec) : (s.modPiece n k f).merge = s.merge := rfl
@[simp] theorem State.modPiece_gauge (s : State) (n : StripNum) (k : Nat) (f : PieceRec → PieceRec) : (s.modPiece n k f).gauge = s.gauge := rfl
@[simp] theorem State.modPiece_grading (s : State) (n : StripNum) (k : Nat) (f : PieceRec → PieceRec) : (s.modPiece n k f).grading = s.grading := rfl
@[simp] theorem State.modPiece_fire (s : State) (n : StripNum) (k : Nat) (f : PieceRec → PieceRec) : (s.modPiece n k f).fire = s.fire := rfl
@[simp] theorem State.modPiece_cut (s : State) (n : StripNum) (k : Nat) (f : PieceRec → PieceRec) : (s.modPiece n k f).cut = s.cut := rfl
@[simp] theorem State.modPiece_book (s : State) (n : StripNum) (k : Nat) (f : PieceRec → PieceRec) : (s.modPiece n k f).book = s.book := rfl
@[simp] theorem State.modPiece_bnc (s : State) (n : StripNum) (k : Nat) (f : PieceRec → PieceRec) : (s.modPiece n k f).bnc = s.bnc := rfl
@[simp] theorem State.modPiece_holds (s : State) (n : StripNum) (k : Nat) (f : PieceRec → PieceRec) : (s.modPiece n k f).holds = s.holds := rfl
@[simp] theorem State.modPiece_audit (s : State) (n : StripNum) (k : Nat) (f : PieceRec → PieceRec) : (s.modPiece n k f).audit = s.audit := rfl
@[simp] theorem State.modPiece_ports (s : State) (n : StripNum) (k : Nat) (f : PieceRec → PieceRec) : (s.modPiece n k f).ports = s.ports := rfl
@[simp] theorem State.modPiece_guardOpen (s : State) (n : StripNum) (k : Nat) (f : PieceRec → PieceRec) : (s.modPiece n k f).guardOpen = s.guardOpen := rfl
@[simp] theorem State.modPiece_beltRun (s : State) (n : StripNum) (k : Nat) (f : PieceRec → PieceRec) : (s.modPiece n k f).beltRun = s.beltRun := rfl
@[simp] theorem State.modPiece_time (s : State) (n : StripNum) (k : Nat) (f : PieceRec → PieceRec) : (s.modPiece n k f).time = s.time := rfl
@[simp] theorem State.modPiece_choices (s : State) (n : StripNum) (k : Nat) (f : PieceRec → PieceRec) : (s.modPiece n k f).choices = s.choices := rfl
@[simp] theorem State.modPiece_pending (s : State) (n : StripNum) (k : Nat) (f : PieceRec → PieceRec) : (s.modPiece n k f).pending = s.pending := rfl

/-! raiseAt -/

@[simp] theorem State.raiseAt_track (s : State) (p : PortId) (e : EventKind) (d : Nat) (n : StripNum) (k x : Nat) : (s.raiseAt p e d n k x).track = s.track := rfl
@[simp] theorem State.raiseAt_lanes (s : State) (p : PortId) (e : EventKind) (d : Nat) (n : StripNum) (k x : Nat) : (s.raiseAt p e d n k x).lanes = s.lanes := rfl
@[simp] theorem State.raiseAt_merge (s : State) (p : PortId) (e : EventKind) (d : Nat) (n : StripNum) (k x : Nat) : (s.raiseAt p e d n k x).merge = s.merge := rfl
@[simp] theorem State.raiseAt_gauge (s : State) (p : PortId) (e : EventKind) (d : Nat) (n : StripNum) (k x : Nat) : (s.raiseAt p e d n k x).gauge = s.gauge := rfl
@[simp] theorem State.raiseAt_grading (s : State) (p : PortId) (e : EventKind) (d : Nat) (n : StripNum) (k x : Nat) : (s.raiseAt p e d n k x).grading = s.grading := rfl
@[simp] theorem State.raiseAt_fire (s : State) (p : PortId) (e : EventKind) (d : Nat) (n : StripNum) (k x : Nat) : (s.raiseAt p e d n k x).fire = s.fire := rfl
@[simp] theorem State.raiseAt_cut (s : State) (p : PortId) (e : EventKind) (d : Nat) (n : StripNum) (k x : Nat) : (s.raiseAt p e d n k x).cut = s.cut := rfl
@[simp] theorem State.raiseAt_book (s : State) (p : PortId) (e : EventKind) (d : Nat) (n : StripNum) (k x : Nat) : (s.raiseAt p e d n k x).book = s.book := rfl
@[simp] theorem State.raiseAt_bnc (s : State) (p : PortId) (e : EventKind) (d : Nat) (n : StripNum) (k x : Nat) : (s.raiseAt p e d n k x).bnc = s.bnc := rfl
@[simp] theorem State.raiseAt_holds (s : State) (p : PortId) (e : EventKind) (d : Nat) (n : StripNum) (k x : Nat) : (s.raiseAt p e d n k x).holds = s.holds := rfl
@[simp] theorem State.raiseAt_audit (s : State) (p : PortId) (e : EventKind) (d : Nat) (n : StripNum) (k x : Nat) : (s.raiseAt p e d n k x).audit = s.audit := rfl
@[simp] theorem State.raiseAt_guardOpen (s : State) (p : PortId) (e : EventKind) (d : Nat) (n : StripNum) (k x : Nat) : (s.raiseAt p e d n k x).guardOpen = s.guardOpen := rfl
@[simp] theorem State.raiseAt_beltRun (s : State) (p : PortId) (e : EventKind) (d : Nat) (n : StripNum) (k x : Nat) : (s.raiseAt p e d n k x).beltRun = s.beltRun := rfl
@[simp] theorem State.raiseAt_time (s : State) (p : PortId) (e : EventKind) (d : Nat) (n : StripNum) (k x : Nat) : (s.raiseAt p e d n k x).time = s.time := rfl
@[simp] theorem State.raiseAt_choices (s : State) (p : PortId) (e : EventKind) (d : Nat) (n : StripNum) (k x : Nat) : (s.raiseAt p e d n k x).choices = s.choices := rfl
@[simp] theorem State.raiseAt_pending (s : State) (p : PortId) (e : EventKind) (d : Nat) (n : StripNum) (k x : Nat) : (s.raiseAt p e d n k x).pending = s.pending := rfl

/-! raise -/

@[simp] theorem State.raise_track (s : State) (e : EventKind) (d : Nat) (n : StripNum) (k x : Nat) : (s.raise e d n k x).track = s.track := rfl
@[simp] theorem State.raise_lanes (s : State) (e : EventKind) (d : Nat) (n : StripNum) (k x : Nat) : (s.raise e d n k x).lanes = s.lanes := rfl
@[simp] theorem State.raise_merge (s : State) (e : EventKind) (d : Nat) (n : StripNum) (k x : Nat) : (s.raise e d n k x).merge = s.merge := rfl
@[simp] theorem State.raise_gauge (s : State) (e : EventKind) (d : Nat) (n : StripNum) (k x : Nat) : (s.raise e d n k x).gauge = s.gauge := rfl
@[simp] theorem State.raise_grading (s : State) (e : EventKind) (d : Nat) (n : StripNum) (k x : Nat) : (s.raise e d n k x).grading = s.grading := rfl
@[simp] theorem State.raise_fire (s : State) (e : EventKind) (d : Nat) (n : StripNum) (k x : Nat) : (s.raise e d n k x).fire = s.fire := rfl
@[simp] theorem State.raise_cut (s : State) (e : EventKind) (d : Nat) (n : StripNum) (k x : Nat) : (s.raise e d n k x).cut = s.cut := rfl
@[simp] theorem State.raise_book (s : State) (e : EventKind) (d : Nat) (n : StripNum) (k x : Nat) : (s.raise e d n k x).book = s.book := rfl
@[simp] theorem State.raise_bnc (s : State) (e : EventKind) (d : Nat) (n : StripNum) (k x : Nat) : (s.raise e d n k x).bnc = s.bnc := rfl
@[simp] theorem State.raise_holds (s : State) (e : EventKind) (d : Nat) (n : StripNum) (k x : Nat) : (s.raise e d n k x).holds = s.holds := rfl
@[simp] theorem State.raise_audit (s : State) (e : EventKind) (d : Nat) (n : StripNum) (k x : Nat) : (s.raise e d n k x).audit = s.audit := rfl
@[simp] theorem State.raise_guardOpen (s : State) (e : EventKind) (d : Nat) (n : StripNum) (k x : Nat) : (s.raise e d n k x).guardOpen = s.guardOpen := rfl
@[simp] theorem State.raise_beltRun (s : State) (e : EventKind) (d : Nat) (n : StripNum) (k x : Nat) : (s.raise e d n k x).beltRun = s.beltRun := rfl
@[simp] theorem State.raise_time (s : State) (e : EventKind) (d : Nat) (n : StripNum) (k x : Nat) : (s.raise e d n k x).time = s.time := rfl
@[simp] theorem State.raise_choices (s : State) (e : EventKind) (d : Nat) (n : StripNum) (k x : Nat) : (s.raise e d n k x).choices = s.choices := rfl
@[simp] theorem State.raise_pending (s : State) (e : EventKind) (d : Nat) (n : StripNum) (k x : Nat) : (s.raise e d n k x).pending = s.pending := rfl

/-! enterLane -/

@[simp] theorem State.enterLane_track (s : State) (l : Lane) (st : LaneState) : (s.enterLane l st).track = s.track := rfl
@[simp] theorem State.enterLane_merge (s : State) (l : Lane) (st : LaneState) : (s.enterLane l st).merge = s.merge := rfl
@[simp] theorem State.enterLane_gauge (s : State) (l : Lane) (st : LaneState) : (s.enterLane l st).gauge = s.gauge := rfl
@[simp] theorem State.enterLane_grading (s : State) (l : Lane) (st : LaneState) : (s.enterLane l st).grading = s.grading := rfl
@[simp] theorem State.enterLane_fire (s : State) (l : Lane) (st : LaneState) : (s.enterLane l st).fire = s.fire := rfl
@[simp] theorem State.enterLane_cut (s : State) (l : Lane) (st : LaneState) : (s.enterLane l st).cut = s.cut := rfl
@[simp] theorem State.enterLane_book (s : State) (l : Lane) (st : LaneState) : (s.enterLane l st).book = s.book := rfl
@[simp] theorem State.enterLane_bnc (s : State) (l : Lane) (st : LaneState) : (s.enterLane l st).bnc = s.bnc := rfl
@[simp] theorem State.enterLane_holds (s : State) (l : Lane) (st : LaneState) : (s.enterLane l st).holds = s.holds := rfl
@[simp] theorem State.enterLane_audit (s : State) (l : Lane) (st : LaneState) : (s.enterLane l st).audit = s.audit := rfl
@[simp] theorem State.enterLane_guardOpen (s : State) (l : Lane) (st : LaneState) : (s.enterLane l st).guardOpen = s.guardOpen := rfl
@[simp] theorem State.enterLane_beltRun (s : State) (l : Lane) (st : LaneState) : (s.enterLane l st).beltRun = s.beltRun := rfl
@[simp] theorem State.enterLane_time (s : State) (l : Lane) (st : LaneState) : (s.enterLane l st).time = s.time := rfl
@[simp] theorem State.enterLane_choices (s : State) (l : Lane) (st : LaneState) : (s.enterLane l st).choices = s.choices := rfl
@[simp] theorem State.enterLane_pending (s : State) (l : Lane) (st : LaneState) : (s.enterLane l st).pending = s.pending := rfl

/-! enterBin -/

@[simp] theorem State.enterBin_track (s : State) (b : BinId) (st : BinState) : (s.enterBin b st).track = s.track := rfl
@[simp] theorem State.enterBin_lanes (s : State) (b : BinId) (st : BinState) : (s.enterBin b st).lanes = s.lanes := rfl
@[simp] theorem State.enterBin_merge (s : State) (b : BinId) (st : BinState) : (s.enterBin b st).merge = s.merge := rfl
@[simp] theorem State.enterBin_gauge (s : State) (b : BinId) (st : BinState) : (s.enterBin b st).gauge = s.gauge := rfl
@[simp] theorem State.enterBin_grading (s : State) (b : BinId) (st : BinState) : (s.enterBin b st).grading = s.grading := rfl
@[simp] theorem State.enterBin_fire (s : State) (b : BinId) (st : BinState) : (s.enterBin b st).fire = s.fire := rfl
@[simp] theorem State.enterBin_cut (s : State) (b : BinId) (st : BinState) : (s.enterBin b st).cut = s.cut := rfl
@[simp] theorem State.enterBin_book (s : State) (b : BinId) (st : BinState) : (s.enterBin b st).book = s.book := rfl
@[simp] theorem State.enterBin_holds (s : State) (b : BinId) (st : BinState) : (s.enterBin b st).holds = s.holds := rfl
@[simp] theorem State.enterBin_audit (s : State) (b : BinId) (st : BinState) : (s.enterBin b st).audit = s.audit := rfl
@[simp] theorem State.enterBin_guardOpen (s : State) (b : BinId) (st : BinState) : (s.enterBin b st).guardOpen = s.guardOpen := rfl
@[simp] theorem State.enterBin_beltRun (s : State) (b : BinId) (st : BinState) : (s.enterBin b st).beltRun = s.beltRun := rfl
@[simp] theorem State.enterBin_time (s : State) (b : BinId) (st : BinState) : (s.enterBin b st).time = s.time := rfl
@[simp] theorem State.enterBin_choices (s : State) (b : BinId) (st : BinState) : (s.enterBin b st).choices = s.choices := rfl
@[simp] theorem State.enterBin_pending (s : State) (b : BinId) (st : BinState) : (s.enterBin b st).pending = s.pending := rfl

/-! enterOrder -/

@[simp] theorem State.enterOrder_track (s : State) (i : OrderId) (st : OrderState) : (s.enterOrder i st).track = s.track := rfl
@[simp] theorem State.enterOrder_lanes (s : State) (i : OrderId) (st : OrderState) : (s.enterOrder i st).lanes = s.lanes := rfl
@[simp] theorem State.enterOrder_merge (s : State) (i : OrderId) (st : OrderState) : (s.enterOrder i st).merge = s.merge := rfl
@[simp] theorem State.enterOrder_gauge (s : State) (i : OrderId) (st : OrderState) : (s.enterOrder i st).gauge = s.gauge := rfl
@[simp] theorem State.enterOrder_grading (s : State) (i : OrderId) (st : OrderState) : (s.enterOrder i st).grading = s.grading := rfl
@[simp] theorem State.enterOrder_fire (s : State) (i : OrderId) (st : OrderState) : (s.enterOrder i st).fire = s.fire := rfl
@[simp] theorem State.enterOrder_cut (s : State) (i : OrderId) (st : OrderState) : (s.enterOrder i st).cut = s.cut := rfl
@[simp] theorem State.enterOrder_bnc (s : State) (i : OrderId) (st : OrderState) : (s.enterOrder i st).bnc = s.bnc := rfl
@[simp] theorem State.enterOrder_holds (s : State) (i : OrderId) (st : OrderState) : (s.enterOrder i st).holds = s.holds := rfl
@[simp] theorem State.enterOrder_audit (s : State) (i : OrderId) (st : OrderState) : (s.enterOrder i st).audit = s.audit := rfl
@[simp] theorem State.enterOrder_guardOpen (s : State) (i : OrderId) (st : OrderState) : (s.enterOrder i st).guardOpen = s.guardOpen := rfl
@[simp] theorem State.enterOrder_beltRun (s : State) (i : OrderId) (st : OrderState) : (s.enterOrder i st).beltRun = s.beltRun := rfl
@[simp] theorem State.enterOrder_time (s : State) (i : OrderId) (st : OrderState) : (s.enterOrder i st).time = s.time := rfl
@[simp] theorem State.enterOrder_choices (s : State) (i : OrderId) (st : OrderState) : (s.enterOrder i st).choices = s.choices := rfl
@[simp] theorem State.enterOrder_pending (s : State) (i : OrderId) (st : OrderState) : (s.enterOrder i st).pending = s.pending := rfl

/-! cancelEntries -/

@[simp] theorem State.cancelEntries_track (s : State) (test : FireEntry → Bool) : (s.cancelEntries test).track = s.track := rfl
@[simp] theorem State.cancelEntries_lanes (s : State) (test : FireEntry → Bool) : (s.cancelEntries test).lanes = s.lanes := rfl
@[simp] theorem State.cancelEntries_merge (s : State) (test : FireEntry → Bool) : (s.cancelEntries test).merge = s.merge := rfl
@[simp] theorem State.cancelEntries_gauge (s : State) (test : FireEntry → Bool) : (s.cancelEntries test).gauge = s.gauge := rfl
@[simp] theorem State.cancelEntries_grading (s : State) (test : FireEntry → Bool) : (s.cancelEntries test).grading = s.grading := rfl
@[simp] theorem State.cancelEntries_cut (s : State) (test : FireEntry → Bool) : (s.cancelEntries test).cut = s.cut := rfl
@[simp] theorem State.cancelEntries_book (s : State) (test : FireEntry → Bool) : (s.cancelEntries test).book = s.book := rfl
@[simp] theorem State.cancelEntries_bnc (s : State) (test : FireEntry → Bool) : (s.cancelEntries test).bnc = s.bnc := rfl
@[simp] theorem State.cancelEntries_holds (s : State) (test : FireEntry → Bool) : (s.cancelEntries test).holds = s.holds := rfl
@[simp] theorem State.cancelEntries_audit (s : State) (test : FireEntry → Bool) : (s.cancelEntries test).audit = s.audit := rfl
@[simp] theorem State.cancelEntries_ports (s : State) (test : FireEntry → Bool) : (s.cancelEntries test).ports = s.ports := rfl
@[simp] theorem State.cancelEntries_guardOpen (s : State) (test : FireEntry → Bool) : (s.cancelEntries test).guardOpen = s.guardOpen := rfl
@[simp] theorem State.cancelEntries_beltRun (s : State) (test : FireEntry → Bool) : (s.cancelEntries test).beltRun = s.beltRun := rfl
@[simp] theorem State.cancelEntries_time (s : State) (test : FireEntry → Bool) : (s.cancelEntries test).time = s.time := rfl
@[simp] theorem State.cancelEntries_choices (s : State) (test : FireEntry → Bool) : (s.cancelEntries test).choices = s.choices := rfl
@[simp] theorem State.cancelEntries_pending (s : State) (test : FireEntry → Bool) : (s.cancelEntries test).pending = s.pending := rfl

/-! toTransit -/

@[simp] theorem State.toTransit_lanes (s : State) (l : Lane) (r : StripRec) (rest : List StripRec) : (s.toTransit l r rest).lanes = s.lanes := rfl
@[simp] theorem State.toTransit_merge (s : State) (l : Lane) (r : StripRec) (rest : List StripRec) : (s.toTransit l r rest).merge = s.merge := rfl
@[simp] theorem State.toTransit_gauge (s : State) (l : Lane) (r : StripRec) (rest : List StripRec) : (s.toTransit l r rest).gauge = s.gauge := rfl
@[simp] theorem State.toTransit_grading (s : State) (l : Lane) (r : StripRec) (rest : List StripRec) : (s.toTransit l r rest).grading = s.grading := rfl
@[simp] theorem State.toTransit_fire (s : State) (l : Lane) (r : StripRec) (rest : List StripRec) : (s.toTransit l r rest).fire = s.fire := rfl
@[simp] theorem State.toTransit_cut (s : State) (l : Lane) (r : StripRec) (rest : List StripRec) : (s.toTransit l r rest).cut = s.cut := rfl
@[simp] theorem State.toTransit_book (s : State) (l : Lane) (r : StripRec) (rest : List StripRec) : (s.toTransit l r rest).book = s.book := rfl
@[simp] theorem State.toTransit_bnc (s : State) (l : Lane) (r : StripRec) (rest : List StripRec) : (s.toTransit l r rest).bnc = s.bnc := rfl
@[simp] theorem State.toTransit_holds (s : State) (l : Lane) (r : StripRec) (rest : List StripRec) : (s.toTransit l r rest).holds = s.holds := rfl
@[simp] theorem State.toTransit_audit (s : State) (l : Lane) (r : StripRec) (rest : List StripRec) : (s.toTransit l r rest).audit = s.audit := rfl
@[simp] theorem State.toTransit_ports (s : State) (l : Lane) (r : StripRec) (rest : List StripRec) : (s.toTransit l r rest).ports = s.ports := rfl
@[simp] theorem State.toTransit_guardOpen (s : State) (l : Lane) (r : StripRec) (rest : List StripRec) : (s.toTransit l r rest).guardOpen = s.guardOpen := rfl
@[simp] theorem State.toTransit_beltRun (s : State) (l : Lane) (r : StripRec) (rest : List StripRec) : (s.toTransit l r rest).beltRun = s.beltRun := rfl
@[simp] theorem State.toTransit_time (s : State) (l : Lane) (r : StripRec) (rest : List StripRec) : (s.toTransit l r rest).time = s.time := rfl
@[simp] theorem State.toTransit_choices (s : State) (l : Lane) (r : StripRec) (rest : List StripRec) : (s.toTransit l r rest).choices = s.choices := rfl
@[simp] theorem State.toTransit_pending (s : State) (l : Lane) (r : StripRec) (rest : List StripRec) : (s.toTransit l r rest).pending = s.pending := rfl

/-! replaceStrip -/

@[simp] theorem State.replaceStrip_lanes (s : State) (n : StripNum) (qs : List PieceRec) : (s.replaceStrip n qs).lanes = s.lanes := rfl
@[simp] theorem State.replaceStrip_merge (s : State) (n : StripNum) (qs : List PieceRec) : (s.replaceStrip n qs).merge = s.merge := rfl
@[simp] theorem State.replaceStrip_gauge (s : State) (n : StripNum) (qs : List PieceRec) : (s.replaceStrip n qs).gauge = s.gauge := rfl
@[simp] theorem State.replaceStrip_grading (s : State) (n : StripNum) (qs : List PieceRec) : (s.replaceStrip n qs).grading = s.grading := rfl
@[simp] theorem State.replaceStrip_fire (s : State) (n : StripNum) (qs : List PieceRec) : (s.replaceStrip n qs).fire = s.fire := rfl
@[simp] theorem State.replaceStrip_cut (s : State) (n : StripNum) (qs : List PieceRec) : (s.replaceStrip n qs).cut = s.cut := rfl
@[simp] theorem State.replaceStrip_book (s : State) (n : StripNum) (qs : List PieceRec) : (s.replaceStrip n qs).book = s.book := rfl
@[simp] theorem State.replaceStrip_bnc (s : State) (n : StripNum) (qs : List PieceRec) : (s.replaceStrip n qs).bnc = s.bnc := rfl
@[simp] theorem State.replaceStrip_holds (s : State) (n : StripNum) (qs : List PieceRec) : (s.replaceStrip n qs).holds = s.holds := rfl
@[simp] theorem State.replaceStrip_audit (s : State) (n : StripNum) (qs : List PieceRec) : (s.replaceStrip n qs).audit = s.audit := rfl
@[simp] theorem State.replaceStrip_ports (s : State) (n : StripNum) (qs : List PieceRec) : (s.replaceStrip n qs).ports = s.ports := rfl
@[simp] theorem State.replaceStrip_guardOpen (s : State) (n : StripNum) (qs : List PieceRec) : (s.replaceStrip n qs).guardOpen = s.guardOpen := rfl
@[simp] theorem State.replaceStrip_beltRun (s : State) (n : StripNum) (qs : List PieceRec) : (s.replaceStrip n qs).beltRun = s.beltRun := rfl
@[simp] theorem State.replaceStrip_time (s : State) (n : StripNum) (qs : List PieceRec) : (s.replaceStrip n qs).time = s.time := rfl
@[simp] theorem State.replaceStrip_choices (s : State) (n : StripNum) (qs : List PieceRec) : (s.replaceStrip n qs).choices = s.choices := rfl
@[simp] theorem State.replaceStrip_pending (s : State) (n : StripNum) (qs : List PieceRec) : (s.replaceStrip n qs).pending = s.pending := rfl

/-! setPhase -/

@[simp] theorem State.setPhase_track (s : State) (p : PortId) (c : Byte) (ph : Phase) : (s.setPhase p c ph).track = s.track := rfl
@[simp] theorem State.setPhase_lanes (s : State) (p : PortId) (c : Byte) (ph : Phase) : (s.setPhase p c ph).lanes = s.lanes := rfl
@[simp] theorem State.setPhase_merge (s : State) (p : PortId) (c : Byte) (ph : Phase) : (s.setPhase p c ph).merge = s.merge := rfl
@[simp] theorem State.setPhase_gauge (s : State) (p : PortId) (c : Byte) (ph : Phase) : (s.setPhase p c ph).gauge = s.gauge := rfl
@[simp] theorem State.setPhase_grading (s : State) (p : PortId) (c : Byte) (ph : Phase) : (s.setPhase p c ph).grading = s.grading := rfl
@[simp] theorem State.setPhase_fire (s : State) (p : PortId) (c : Byte) (ph : Phase) : (s.setPhase p c ph).fire = s.fire := rfl
@[simp] theorem State.setPhase_cut (s : State) (p : PortId) (c : Byte) (ph : Phase) : (s.setPhase p c ph).cut = s.cut := rfl
@[simp] theorem State.setPhase_book (s : State) (p : PortId) (c : Byte) (ph : Phase) : (s.setPhase p c ph).book = s.book := rfl
@[simp] theorem State.setPhase_bnc (s : State) (p : PortId) (c : Byte) (ph : Phase) : (s.setPhase p c ph).bnc = s.bnc := rfl
@[simp] theorem State.setPhase_holds (s : State) (p : PortId) (c : Byte) (ph : Phase) : (s.setPhase p c ph).holds = s.holds := rfl
@[simp] theorem State.setPhase_audit (s : State) (p : PortId) (c : Byte) (ph : Phase) : (s.setPhase p c ph).audit = s.audit := rfl
@[simp] theorem State.setPhase_guardOpen (s : State) (p : PortId) (c : Byte) (ph : Phase) : (s.setPhase p c ph).guardOpen = s.guardOpen := rfl
@[simp] theorem State.setPhase_beltRun (s : State) (p : PortId) (c : Byte) (ph : Phase) : (s.setPhase p c ph).beltRun = s.beltRun := rfl
@[simp] theorem State.setPhase_time (s : State) (p : PortId) (c : Byte) (ph : Phase) : (s.setPhase p c ph).time = s.time := rfl
@[simp] theorem State.setPhase_choices (s : State) (p : PortId) (c : Byte) (ph : Phase) : (s.setPhase p c ph).choices = s.choices := rfl
@[simp] theorem State.setPhase_pending (s : State) (p : PortId) (c : Byte) (ph : Phase) : (s.setPhase p c ph).pending = s.pending := rfl

/-! setResult -/

@[simp] theorem State.setResult_track (s : State) (p : PortId) (r : Result) : (s.setResult p r).track = s.track := rfl
@[simp] theorem State.setResult_lanes (s : State) (p : PortId) (r : Result) : (s.setResult p r).lanes = s.lanes := rfl
@[simp] theorem State.setResult_merge (s : State) (p : PortId) (r : Result) : (s.setResult p r).merge = s.merge := rfl
@[simp] theorem State.setResult_gauge (s : State) (p : PortId) (r : Result) : (s.setResult p r).gauge = s.gauge := rfl
@[simp] theorem State.setResult_grading (s : State) (p : PortId) (r : Result) : (s.setResult p r).grading = s.grading := rfl
@[simp] theorem State.setResult_fire (s : State) (p : PortId) (r : Result) : (s.setResult p r).fire = s.fire := rfl
@[simp] theorem State.setResult_cut (s : State) (p : PortId) (r : Result) : (s.setResult p r).cut = s.cut := rfl
@[simp] theorem State.setResult_book (s : State) (p : PortId) (r : Result) : (s.setResult p r).book = s.book := rfl
@[simp] theorem State.setResult_bnc (s : State) (p : PortId) (r : Result) : (s.setResult p r).bnc = s.bnc := rfl
@[simp] theorem State.setResult_holds (s : State) (p : PortId) (r : Result) : (s.setResult p r).holds = s.holds := rfl
@[simp] theorem State.setResult_audit (s : State) (p : PortId) (r : Result) : (s.setResult p r).audit = s.audit := rfl
@[simp] theorem State.setResult_guardOpen (s : State) (p : PortId) (r : Result) : (s.setResult p r).guardOpen = s.guardOpen := rfl
@[simp] theorem State.setResult_beltRun (s : State) (p : PortId) (r : Result) : (s.setResult p r).beltRun = s.beltRun := rfl
@[simp] theorem State.setResult_time (s : State) (p : PortId) (r : Result) : (s.setResult p r).time = s.time := rfl
@[simp] theorem State.setResult_choices (s : State) (p : PortId) (r : Result) : (s.setResult p r).choices = s.choices := rfl
@[simp] theorem State.setResult_pending (s : State) (p : PortId) (r : Result) : (s.setResult p r).pending = s.pending := rfl

/-! closeFrame -/

@[simp] theorem State.closeFrame_track (s : State) (p : PortId) (r : Result) : (s.closeFrame p r).track = s.track := rfl
@[simp] theorem State.closeFrame_lanes (s : State) (p : PortId) (r : Result) : (s.closeFrame p r).lanes = s.lanes := rfl
@[simp] theorem State.closeFrame_merge (s : State) (p : PortId) (r : Result) : (s.closeFrame p r).merge = s.merge := rfl
@[simp] theorem State.closeFrame_gauge (s : State) (p : PortId) (r : Result) : (s.closeFrame p r).gauge = s.gauge := rfl
@[simp] theorem State.closeFrame_grading (s : State) (p : PortId) (r : Result) : (s.closeFrame p r).grading = s.grading := rfl
@[simp] theorem State.closeFrame_fire (s : State) (p : PortId) (r : Result) : (s.closeFrame p r).fire = s.fire := rfl
@[simp] theorem State.closeFrame_cut (s : State) (p : PortId) (r : Result) : (s.closeFrame p r).cut = s.cut := rfl
@[simp] theorem State.closeFrame_book (s : State) (p : PortId) (r : Result) : (s.closeFrame p r).book = s.book := rfl
@[simp] theorem State.closeFrame_bnc (s : State) (p : PortId) (r : Result) : (s.closeFrame p r).bnc = s.bnc := rfl
@[simp] theorem State.closeFrame_holds (s : State) (p : PortId) (r : Result) : (s.closeFrame p r).holds = s.holds := rfl
@[simp] theorem State.closeFrame_audit (s : State) (p : PortId) (r : Result) : (s.closeFrame p r).audit = s.audit := rfl
@[simp] theorem State.closeFrame_guardOpen (s : State) (p : PortId) (r : Result) : (s.closeFrame p r).guardOpen = s.guardOpen := rfl
@[simp] theorem State.closeFrame_beltRun (s : State) (p : PortId) (r : Result) : (s.closeFrame p r).beltRun = s.beltRun := rfl
@[simp] theorem State.closeFrame_time (s : State) (p : PortId) (r : Result) : (s.closeFrame p r).time = s.time := rfl
@[simp] theorem State.closeFrame_choices (s : State) (p : PortId) (r : Result) : (s.closeFrame p r).choices = s.choices := rfl
@[simp] theorem State.closeFrame_pending (s : State) (p : PortId) (r : Result) : (s.closeFrame p r).pending = s.pending := rfl

/-! countDown -/

@[simp] theorem State.countDown_track (s : State) (us : Nat) : (s.countDown us).track = s.track := rfl
@[simp] theorem State.countDown_merge (s : State) (us : Nat) : (s.countDown us).merge = s.merge := rfl
@[simp] theorem State.countDown_gauge (s : State) (us : Nat) : (s.countDown us).gauge = s.gauge := rfl
@[simp] theorem State.countDown_grading (s : State) (us : Nat) : (s.countDown us).grading = s.grading := rfl
@[simp] theorem State.countDown_cut (s : State) (us : Nat) : (s.countDown us).cut = s.cut := rfl
@[simp] theorem State.countDown_book (s : State) (us : Nat) : (s.countDown us).book = s.book := rfl
@[simp] theorem State.countDown_bnc (s : State) (us : Nat) : (s.countDown us).bnc = s.bnc := rfl
@[simp] theorem State.countDown_holds (s : State) (us : Nat) : (s.countDown us).holds = s.holds := rfl
@[simp] theorem State.countDown_audit (s : State) (us : Nat) : (s.countDown us).audit = s.audit := rfl
@[simp] theorem State.countDown_ports (s : State) (us : Nat) : (s.countDown us).ports = s.ports := rfl
@[simp] theorem State.countDown_guardOpen (s : State) (us : Nat) : (s.countDown us).guardOpen = s.guardOpen := rfl
@[simp] theorem State.countDown_beltRun (s : State) (us : Nat) : (s.countDown us).beltRun = s.beltRun := rfl
@[simp] theorem State.countDown_choices (s : State) (us : Nat) : (s.countDown us).choices = s.choices := rfl
@[simp] theorem State.countDown_pending (s : State) (us : Nat) : (s.countDown us).pending = s.pending := rfl

end Sys2Proof.Machine
end

