-- ==== Sys2Proof/Laws/Frames.lean ====
section
/-! SUPPORT. How frames combine, and what a frame says of each block it does not list. -/

namespace Sys2Proof.Machine

set_option Elab.async false

/-! ## Combining frames -/

theorem State.unchangedBut.refl (bs : List Block) (s : State) : s.unchangedBut bs s := by
  exact ⟨fun b _ => by cases b <;> rfl⟩

theorem State.unchangedBut.mono {bs cs : List Block} {s t : State} (h : s.unchangedBut bs t)
    (hsub : bs ⊆ cs := by decide) : s.unchangedBut cs t :=
  ⟨fun b hb => h.kept b fun hm => hb (hsub hm)⟩

theorem Block.agree_trans {b : Block} {s t u : State} (h : b.agree s t) (k : b.agree t u) : b.agree s u := by
  cases b <;> exact Eq.trans k h

theorem State.unchangedBut.trans {bs : List Block} {s t u : State} (h : s.unchangedBut bs t)
    (k : t.unchangedBut bs u) : s.unchangedBut bs u :=
  ⟨fun b hb => Block.agree_trans (h.kept b hb) (k.kept b hb)⟩

/-- One frame after another, within a wider one. -/
theorem State.unchangedBut.comp {bs cs ds : List Block} {s t u : State} (h : s.unchangedBut bs t)
    (k : t.unchangedBut cs u) (hb : bs ⊆ ds := by decide) (hc : cs ⊆ ds := by decide) : s.unchangedBut ds u :=
  (h.mono hb).trans (k.mono hc)

section
variable {bs : List Block} {s t : State} (h : s.unchangedBut bs t)
include h

theorem State.unchangedBut.track (hb : Block.track ∉ bs := by decide) : t.track = s.track := h.kept _ hb
theorem State.unchangedBut.lanes (hb : Block.lanes ∉ bs := by decide) : t.lanes = s.lanes := h.kept _ hb
theorem State.unchangedBut.merge (hb : Block.merge ∉ bs := by decide) : t.merge = s.merge := h.kept _ hb
theorem State.unchangedBut.gauge (hb : Block.gauge ∉ bs := by decide) : t.gauge = s.gauge := h.kept _ hb
theorem State.unchangedBut.grading (hb : Block.grading ∉ bs := by decide) : t.grading = s.grading := h.kept _ hb
theorem State.unchangedBut.fire (hb : Block.fire ∉ bs := by decide) : t.fire = s.fire := h.kept _ hb
theorem State.unchangedBut.cut (hb : Block.cut ∉ bs := by decide) : t.cut = s.cut := h.kept _ hb
theorem State.unchangedBut.book (hb : Block.book ∉ bs := by decide) : t.book = s.book := h.kept _ hb
theorem State.unchangedBut.bnc (hb : Block.bins ∉ bs := by decide) : t.bnc = s.bnc := h.kept _ hb
theorem State.unchangedBut.holds (hb : Block.holds ∉ bs := by decide) : t.holds = s.holds := h.kept _ hb
theorem State.unchangedBut.audit (hb : Block.audit ∉ bs := by decide) : t.audit = s.audit := h.kept _ hb
theorem State.unchangedBut.ports (hb : Block.ports ∉ bs := by decide) : t.ports = s.ports := h.kept _ hb
theorem State.unchangedBut.guardOpen (hb : Block.guardInput ∉ bs := by decide) : t.guardOpen = s.guardOpen := h.kept _ hb
theorem State.unchangedBut.beltRun (hb : Block.beltRunInput ∉ bs := by decide) : t.beltRun = s.beltRun := h.kept _ hb
theorem State.unchangedBut.time (hb : Block.time ∉ bs := by decide) : t.time = s.time := h.kept _ hb
theorem State.unchangedBut.choices (hb : Block.choices ∉ bs := by decide) : t.choices = s.choices := h.kept _ hb
theorem State.unchangedBut.pending (hb : Block.pending ∉ bs := by decide) : t.pending = s.pending := h.kept _ hb

end

/-- A fold of an operation stays in the operation's frame. -/
theorem State.unchangedBut.foldl {α : Type} {bs : List Block} (f : State → α → State)
    (hf : ∀ (s : State) (x : α), s.unchangedBut bs (f s x)) (xs : List α) (s : State) :
    s.unchangedBut bs (xs.foldl f s) := by
  induction xs generalizing s with
  | nil => exact .refl _ _
  | cons x xs ih => exact (hf s x).trans (ih _)

end Sys2Proof.Machine
end

