-- ==== Sys2Proof/Laws/Evolves.lean ====
section
/-! SUPPORT. What each shared operation can do: the blocks it can reach, and what it keeps of the blocks it
reaches. One lemma for each operation, named after it. -/

namespace Sys2Proof.Machine

set_option Elab.async false

/-! ## What every shared operation keeps -/

/-- A port goes on with its role and result code, and its queue stays within its 32 places. -/
structure Port.Evolves (p q : Port) : Prop where
  role : q.role = p.role
  result : q.result = p.result
  places : p.queue.length ≤ 32 → q.queue.length ≤ 32

theorem Port.Evolves.refl (p : Port) : p.Evolves p := ⟨rfl, rfl, id⟩

theorem Port.Evolves.trans {p q r : Port} (h : p.Evolves q) (k : q.Evolves r) : p.Evolves r :=
  ⟨k.role.trans h.role, k.result.trans h.result, fun x => k.places (h.places x)⟩

/-- One state comes from another by the part's own work: only the blocks listed are reached, and the marks,
the belt position, the strip limits, the order ids, the ports' roles and results, and the bounds of the lists
are kept. -/
structure State.Evolves (bs : List Block) (s t : State) : Prop where
  frame : s.unchangedBut bs t
  marks : t.track.marks = s.track.marks
  position : t.track.position = s.track.position
  backlash : t.track.backlash = s.track.backlash
  maxStrip : t.gauge.maxStrip = s.gauge.maxStrip
  dropWindow : t.bnc.dropWindow = s.bnc.dropWindow
  rejectMax : t.bnc.rejectMax = s.bnc.rejectMax
  runoutMax : t.bnc.runoutMax = s.bnc.runoutMax
  runouts : t.bnc.runoutCount = s.bnc.runoutCount
  ids : t.book.map Order.id = s.book.map Order.id
  ports : ∀ p, (s.port p).Evolves (t.port p)
  schedule : s.fire.schedule.length ≤ 64 → t.fire.schedule.length ≤ 64
  entries : s.audit.entries.length ≤ 48 → t.audit.entries.length ≤ 48
  guarded : s.guarded → t.guarded

theorem State.Evolves.refl (bs : List Block) (s : State) : s.Evolves bs s :=
  ⟨.refl _ _, rfl, rfl, rfl, rfl, rfl, rfl, rfl, rfl, rfl, fun _ => .refl _, id, id, id⟩

theorem State.Evolves.trans {bs : List Block} {s t u : State} (h : s.Evolves bs t) (k : t.Evolves bs u) :
    s.Evolves bs u :=
  ⟨h.frame.trans k.frame, k.marks.trans h.marks, k.position.trans h.position, k.backlash.trans h.backlash,
    k.maxStrip.trans h.maxStrip, k.dropWindow.trans h.dropWindow, k.rejectMax.trans h.rejectMax,
    k.runoutMax.trans h.runoutMax, k.runouts.trans h.runouts, k.ids.trans h.ids,
    fun p => (h.ports p).trans (k.ports p), fun x => k.schedule (h.schedule x), fun x => k.entries (h.entries x),
    fun x => k.guarded (h.guarded x)⟩

theorem State.Evolves.mono {bs cs : List Block} {s t : State} (h : s.Evolves bs t)
    (hsub : bs ⊆ cs := by decide) : s.Evolves cs t := { h with frame := h.frame.mono hsub }

/-- One operation after another, within a wider frame. -/
theorem State.Evolves.comp {bs cs ds : List Block} {s t u : State} (h : s.Evolves bs t) (k : t.Evolves cs u)
    (hb : bs ⊆ ds := by decide) (hc : cs ⊆ ds := by decide) : s.Evolves ds u := (h.mono hb).trans (k.mono hc)

/-- An update that keeps all of this by its form. -/
theorem State.Evolves.of_fields {bs : List Block} {s t : State}
    (frame : ∀ b : Block, b ∉ bs → b.agree s t := by
      intro b hb; cases b <;> first | rfl | exact absurd (by decide) hb)
    (marks : t.track.marks = s.track.marks := by rfl) (position : t.track.position = s.track.position := by rfl)
    (backlash : t.track.backlash = s.track.backlash := by rfl)
    (maxStrip : t.gauge.maxStrip = s.gauge.maxStrip := by rfl)
    (dropWindow : t.bnc.dropWindow = s.bnc.dropWindow := by rfl)
    (rejectMax : t.bnc.rejectMax = s.bnc.rejectMax := by rfl)
    (runoutMax : t.bnc.runoutMax = s.bnc.runoutMax := by rfl)
    (runouts : t.bnc.runoutCount = s.bnc.runoutCount := by rfl)
    (ids : t.book.map Order.id = s.book.map Order.id := by rfl)
    (ports : ∀ p, (s.port p).Evolves (t.port p) := by exact fun _ => .refl _)
    (schedule : s.fire.schedule.length ≤ 64 → t.fire.schedule.length ≤ 64 := by exact id)
    (entries : s.audit.entries.length ≤ 48 → t.audit.entries.length ≤ 48 := by exact id)
    (guarded : s.guarded → t.guarded := by exact id) : s.Evolves bs t :=
  ⟨⟨frame⟩, marks, position, backlash, maxStrip, dropWindow, rejectMax, runoutMax, runouts, ids, ports, schedule, entries, guarded⟩

theorem State.Evolves.foldl {α : Type} {bs : List Block} (f : State → α → State)
    (hf : ∀ (s : State) (x : α), s.Evolves bs (f s x)) (xs : List α) (s : State) :
    s.Evolves bs (xs.foldl f s) := by
  induction xs generalizing s with
  | nil => exact .refl _ _
  | cons x xs ih => exact (hf s x).trans (ih _)

/-- An event joins a queue of fewer than 32 records, or is lost. -/
theorem Port.enqueue_evolves (q : Port) (e : Event) : q.Evolves (q.enqueue e) := by
  unfold Port.enqueue
  split
  · exact ⟨rfl, rfl, fun _ => by simp; omega⟩
  · exact ⟨rfl, rfl, id⟩

/-! ## Updates -/

theorem State.modLane_evolves (s : State) (l : Lane) (f : LaneCtl → LaneCtl) :
    s.Evolves [.lanes] (s.modLane l f) := by
  exact .of_fields

theorem State.setQueue_evolves (s : State) (l : Lane) (q : List StripRec) :
    s.Evolves [.track] (s.setQueue l q) := by
  exact .of_fields

theorem State.setPassedOver_evolves (s : State) (l : Lane) (v : Bool) :
    s.Evolves [.merge] (s.setPassedOver l v) := by
  exact .of_fields

theorem State.modPort_evolves (s : State) (p : PortId) (f : Port → Port) (hf : (s.port p).Evolves (f (s.port p))) :
    s.Evolves [.ports] (s.modPort p f) := by
  refine .of_fields (ports := fun q => ?_)
  rw [State.port_modPort]
  split
  · subst q; exact hf
  · exact .refl _

theorem State.modBin_evolves (s : State) (i : BinId) (f : OrderBin → OrderBin) :
    s.Evolves [.bins] (s.modBin i f) := by
  exact .of_fields

theorem State.modChannel_evolves (s : State) (c : ChannelId) (f : Channel → Channel)
    (hf : s.guardOpen = true → (s.channel c).isPulsing = false → (f (s.channel c)).isPulsing = false) :
    s.Evolves [.fire] (s.modChannel c f) := by
  refine .of_fields (guarded := fun h ho d => ?_)
  rw [State.channel_modChannel]
  split
  · subst d; exact hf ho (h ho c)
  · exact h ho d

theorem State.modOrder_evolves (s : State) (i : OrderId) (f : Order → Order) (hf : ∀ o, (f o).id = o.id := by intro; rfl) :
    s.Evolves [.book] (s.modOrder i f) := by
  refine .of_fields (ids := ?_)
  simp only [State.modOrder, List.map_map]
  refine List.map_congr_left fun o _ => ?_
  simp only [Function.comp]
  split <;> simp [hf]

theorem State.modBeltStrip_evolves (s : State) (n : StripNum) (f : StripRec → StripRec) :
    s.Evolves [.track] (s.modBeltStrip n f) := by
  exact .of_fields

theorem State.modPieces_evolves (s : State) (test : PieceRec → Bool) (f : PieceRec → PieceRec) :
    s.Evolves [.track] (s.modPieces test f) := by
  exact .of_fields

theorem State.modPiece_evolves (s : State) (n : StripNum) (k : Nat) (f : PieceRec → PieceRec) :
    s.Evolves [.track] (s.modPiece n k f) := State.modPieces_evolves ..

theorem State.replaceStrip_evolves (s : State) (n : StripNum) (qs : List PieceRec) :
    s.Evolves [.track] (s.replaceStrip n qs) := by
  exact .of_fields

theorem State.cancelEntries_evolves (s : State) (test : FireEntry → Bool) :
    s.Evolves [.fire] (s.cancelEntries test) := by
  exact .of_fields (schedule := fun h => (List.length_filter_le ..).trans h)

theorem Channel.isPulsing_countDown (us : Nat) (c : Channel) : (c.countDown us).isPulsing = c.isPulsing := by
  obtain ⟨st, _, _⟩ := c
  cases st <;> rfl

theorem State.channel_countDown (s : State) (us : Nat) (c : ChannelId) :
    (s.countDown us).channel c = (s.channel c).countDown us := by
  simp [State.channel, State.countDown]

theorem State.countDown_evolves (s : State) (us : Nat) : s.Evolves [.time, .lanes, .fire] (s.countDown us) := by
  refine .of_fields (guarded := fun h ho c => ?_)
  rw [State.channel_countDown, Channel.isPulsing_countDown]
  exact h ho c

theorem State.toTransit_evolves (s : State) (l : Lane) (r : StripRec) (rest : List StripRec) :
    s.Evolves [.track] (s.toTransit l r rest) := by
  exact .of_fields

/-! ## Events, trace entries and faults -/

theorem State.raiseAt_evolves (s : State) (p : PortId) (e : EventKind) (d : Nat) (n : StripNum) (k x : Nat) :
    s.Evolves [.ports] (s.raiseAt p e d n k x) := State.modPort_evolves _ _ _ (Port.enqueue_evolves ..)

theorem State.raise_evolves (s : State) (e : EventKind) (d : Nat) (n : StripNum) (k x : Nat) :
    s.Evolves [.ports] (s.raise e d n k x) := State.raiseAt_evolves s _ e d n k x

theorem Audit.offerEntry_entries (a : Audit) (e : TraceEntry) (h : a.entries.length ≤ 48) :
    (a.offerEntry e).entries.length ≤ 48 := by
  unfold Audit.offerEntry
  split
  · split
    · simp; omega
    · exact h
  · exact h
  · exact h

theorem State.traceEntry_evolves (s : State) (traced : Bool) (kind : TraceKind) (d k : Nat) :
    s.Evolves [.audit] (s.traceEntry traced kind d k) := by
  unfold State.traceEntry
  split
  · exact .of_fields (entries := Audit.offerEntry_entries _ _)
  · exact .refl _ _

theorem State.offerFault_evolves (s : State) (kind : FaultKind) (n : StripNum) (k x : Nat) :
    s.Evolves [.audit] (s.offerFault kind n k x) := by
  unfold State.offerFault
  split <;> exact .of_fields

theorem State.lineFault_evolves (s : State) (kind : FaultKind) (n : StripNum) (k x : Nat) :
    s.Evolves [.audit, .ports] (s.lineFault kind n k x) :=
  (State.offerFault_evolves ..).comp (State.raise_evolves ..)

theorem State.enterLane_evolves (s : State) (l : Lane) (st : LaneState) :
    s.Evolves [.lanes, .ports] (s.enterLane l st) := (State.modLane_evolves ..).comp (State.raise_evolves ..)

theorem State.enterBin_evolves (s : State) (i : BinId) (st : BinState) :
    s.Evolves [.bins, .ports] (s.enterBin i st) := (State.modBin_evolves ..).comp (State.raise_evolves ..)

theorem State.enterOrder_evolves (s : State) (i : OrderId) (st : OrderState) :
    s.Evolves [.book, .ports] (s.enterOrder i st) := (State.modOrder_evolves ..).comp (State.raise_evolves ..)

theorem insertEntry_length (key : FireEntry → Nat) (e : FireEntry) (l : List FireEntry) :
    (insertEntry key e l).length = l.length + 1 := by
  induction l with
  | nil => rfl
  | cons x xs ih => unfold insertEntry; split <;> simp [ih]

theorem State.withGroup_length (s : State) (g : List FireEntry) :
    (s.withGroup g).length = g.length + s.fire.schedule.length := by
  unfold State.withGroup
  induction g generalizing s with
  | nil => simp
  | cons e g ih =>
    have h := ih { s with fire.schedule := insertEntry s.distance e s.fire.schedule }
    simp only [List.foldl_cons, List.length_cons]
    refine h.trans ?_
    simp only [insertEntry_length]
    omega

/-- A group that is placed joins the schedule, and nothing else changes. -/
theorem State.placeGroup_evolves {s t : State} {g : List FireEntry} (h : s.placeGroup g = some t) :
    s.Evolves [.fire] t := by
  unfold State.placeGroup at h
  split at h
  · cases h
    exact .of_fields (schedule := fun _ => by rw [State.withGroup_length]; omega)
  · cases h

/-! ## The order book and the bins -/

theorem State.bindBin_evolves (s : State) (i : BinId) (o : Order) : s.Evolves binBlocks (s.bindBin i o) := by
  have h1 : s.Evolves binBlocks (((s.modBin i fun _ => { OrderBin.powerOn with order := some o.id }).enterBin i
      .opened).modOrder o.id fun x => { x with bins := x.bins ++ [i], opened := x.opened + 1 }) :=
    State.Evolves.comp (ds := binBlocks) (State.Evolves.comp (ds := binBlocks) (State.modBin_evolves ..) (State.enterBin_evolves ..)) (State.modOrder_evolves ..)
  unfold State.bindBin
  dsimp only
  split
  · exact h1.comp (State.enterOrder_evolves ..)
  · exact h1

theorem State.bindWhile_evolves (fuel : Nat) (s : State) : s.Evolves binBlocks (s.bindWhile fuel) := by
  induction fuel generalizing s with
  | zero => exact .refl _ _
  | succ n ih =>
    unfold State.bindWhile
    split
    · exact (State.bindBin_evolves ..).trans (ih _)
    · exact .refl _ _
    · exact .refl _ _

/-- A run of the arbiter reaches the book, the bins and the ports' queues. -/
theorem State.runArbiter_evolves (s : State) : s.Evolves binBlocks s.runArbiter := State.bindWhile_evolves ..

theorem State.unbind_evolves (s : State) (b : BinId) (i : OrderId) : s.Evolves [.book, .ports] (s.unbind b i) := by
  have h1 : s.Evolves [.book, .ports] (s.modOrder i fun o => { o with bins := o.bins.erase b }) :=
    (State.modOrder_evolves ..).mono
  unfold State.unbind
  dsimp only
  split
  · exact h1
  · split
    · exact h1
    · split <;> first | exact h1 | exact h1.comp (State.enterOrder_evolves ..)

/-- Giving a bin back reaches the book, the bins and the ports' queues. -/
theorem State.giveBack_evolves (s : State) (b : BinId) (w : Nat) : s.Evolves binBlocks (s.giveBack b w) := by
  have h1 : s.Evolves binBlocks ((s.modBin b fun _ => OrderBin.powerOn).enterBin b .free) :=
    (State.modBin_evolves ..).comp (State.enterBin_evolves ..)
  unfold State.giveBack
  dsimp only
  split
  · exact h1.trans (State.runArbiter_evolves _)
  · exact (h1.comp ((State.modOrder_evolves ..).comp (ds := binBlocks) (State.unbind_evolves ..))).trans (State.runArbiter_evolves _)

theorem State.composeLabel_evolves (s : State) (b : BinId) (rest : List BinId) :
    s.Evolves binBlocks (s.composeLabel b rest) := by
  unfold State.composeLabel
  dsimp only
  refine State.Evolves.comp (bs := binBlocks) ?_ (State.raise_evolves ..)
  refine State.Evolves.comp (t := { s with
    bnc.slots := s.bnc.slots.set s.bnc.compose.val (some (s.labelOf b)) s.bnc.compose.isLt
    bnc.serial := s.bnc.serial + 1
    bnc.compose := otherSlot s.bnc.compose
    bnc.waitList := rest }) (bs := [.bins]) (cs := binBlocks) ?_ ?_
  · exact .of_fields
  · split
    · exact (State.enterBin_evolves ..).mono
    · exact (State.enterBin_evolves ..).comp (State.modOrder_evolves ..)

theorem State.composeWhile_evolves (fuel : Nat) (s : State) : s.Evolves binBlocks (s.composeWhile fuel) := by
  induction fuel generalizing s with
  | zero => exact .refl _ _
  | succ n ih =>
    unfold State.composeWhile
    split
    · exact .refl _ _
    · split
      · exact (State.composeLabel_evolves ..).trans (ih _)
      · exact .refl _ _

/-- Label composition reaches the book, the bins and the ports' queues. -/
theorem State.compose_evolves (s : State) : s.Evolves binBlocks s.compose := State.composeWhile_evolves ..

theorem State.enterLabelWait_evolves (s : State) (b : BinId) (v : Bool) :
    s.Evolves binBlocks (s.enterLabelWait b v) := by
  have h : s.Evolves binBlocks ((s.modBin b fun x => { x with isPartial := v }).enterBin b .labelWait) :=
    (State.modBin_evolves ..).comp (State.enterBin_evolves ..)
  refine h.trans ?_
  unfold State.enterLabelWait
  generalize (s.modBin b fun x => { x with isPartial := v }).enterBin b .labelWait = w
  refine State.Evolves.comp (t := { w with bnc.waitList := w.bnc.waitList ++ [b] }) (bs := [.bins]) ?_
    (State.compose_evolves _)
  exact .of_fields

theorem State.settleBin_evolves (s : State) (b : BinId) : s.Evolves binBlocks (s.settleBin b) := by
  unfold State.settleBin
  split
  · split
    · exact State.giveBack_evolves ..
    · exact State.enterLabelWait_evolves ..
  · exact .refl _ _

theorem State.drainBin_evolves (s : State) (b : BinId) : s.Evolves binBlocks (s.drainBin b) :=
  (State.enterBin_evolves ..).comp (State.settleBin_evolves ..)

theorem State.completeBin_evolves (s : State) (b : BinId) : s.Evolves binBlocks (s.completeBin b) := by
  unfold State.completeBin
  split
  · exact State.enterLabelWait_evolves ..
  · exact .refl _ _

theorem State.reopenBin_evolves (s : State) (b : BinId) : s.Evolves binBlocks (s.reopenBin b) := by
  unfold State.reopenBin
  split <;> try exact .refl _ _
  · split
    · exact State.drainBin_evolves ..
    · exact (State.enterBin_evolves ..).mono
  · exact State.settleBin_evolves ..

/-- Lowering a commitment reaches the book, the bins and the ports' queues. -/
theorem State.lower_evolves (s : State) (b : GateId) (n : StripNum) (k : Nat) :
    s.Evolves binBlocks (s.lower b n k) := by
  unfold State.lower
  split
  · exact .refl _ _
  · split
    · exact (State.modBin_evolves ..).comp (State.reopenBin_evolves ..)
    · exact .of_fields

/-! ## The lanes -/

theorem Audit.countRelease_entries (a : Audit) : a.countRelease.entries = a.entries := by
  unfold Audit.countRelease
  split <;> rfl

theorem Audit.atRelease_entries (a : Audit) (n : StripNum) (l : Lane) (h : a.entries.length ≤ 48) :
    (a.atRelease n l).entries.length ≤ 48 := by
  unfold Audit.atRelease
  split
  · exact Nat.zero_le _
  · rw [Audit.countRelease_entries]; exact h

/-- A release reaches the track, its lane and the audit unit. -/
theorem State.release_evolves (s : State) (l : Lane) : s.Evolves [.track, .lanes, .audit] (s.release l) := by
  unfold State.release
  dsimp only
  refine State.Evolves.comp (bs := [.track, .lanes, .audit]) ?_ (State.traceEntry_evolves ..)
  exact .of_fields (entries := Audit.atRelease_entries _ _ _)

theorem State.testRelease_evolves (s : State) (l : Lane) :
    s.Evolves [.track, .lanes, .audit] (s.testRelease l) := by
  unfold State.testRelease
  split
  · exact State.release_evolves ..
  · exact .refl _ _

/-- A retest reaches the track, the lanes and the audit unit, and may count a free choice. -/
theorem State.retest_evolves (s : State) : s.Evolves [.track, .lanes, .audit, .choices] s.retest := by
  unfold State.retest
  split
  · dsimp only
    refine State.Evolves.comp (bs := [.track, .lanes, .audit, .choices]) ?_ (State.testRelease_evolves ..)
    refine State.Evolves.comp (t := { s with choices := s.choices + 1 }) (bs := [.choices]) ?_
      (State.testRelease_evolves ..)
    exact .of_fields
  · exact (State.testRelease_evolves ..).comp (State.testRelease_evolves ..)

theorem State.startIdle_evolves (s : State) (l : Lane) : s.Evolves [.lanes] (s.startIdle l) := by
  unfold State.startIdle
  split
  · exact State.modLane_evolves ..
  · exact .refl _ _

theorem State.enterRun_evolves (s : State) (l : Lane) : s.Evolves laneBlocks (s.enterRun l) :=
  ((State.enterLane_evolves ..).comp (ds := laneBlocks) (State.testRelease_evolves ..)).comp (State.startIdle_evolves ..)

theorem State.enterDelayed_evolves (s : State) (l : Lane) (st : LaneState) (d : Nat) :
    s.Evolves laneBlocks (s.enterDelayed l st d) := by
  unfold State.enterDelayed
  dsimp only
  split
  · exact (State.enterLane_evolves ..).comp (State.enterRun_evolves ..)
  · exact (State.enterLane_evolves ..).comp (State.modLane_evolves ..)

theorem State.completeDrain_evolves (s : State) (l : Lane) : s.Evolves laneBlocks (s.completeDrain l) := by
  unfold State.completeDrain
  split
  · exact .refl _ _
  · exact (State.modLane_evolves ..).comp (State.enterLane_evolves ..)
  · dsimp only
    split
    · exact (State.modLane_evolves ..).comp (State.enterDelayed_evolves ..)
    · exact ((State.modLane_evolves ..).comp (ds := laneBlocks) (State.enterLane_evolves ..)).comp (State.raise_evolves ..)

theorem State.enterDrain_evolves (s : State) (l : Lane) (target : DrainTarget) :
    s.Evolves laneBlocks (s.enterDrain l target) := by
  have h : s.Evolves laneBlocks ((s.modLane l fun c => { c with target := target }).enterLane l .drain) :=
    (State.modLane_evolves ..).comp (State.enterLane_evolves ..)
  unfold State.enterDrain
  dsimp only
  split
  · exact h.trans (State.completeDrain_evolves ..)
  · exact h

/-- A shortened queue reaches what its lane can reach. -/
theorem State.queueShortened_evolves (s : State) (l : Lane) : s.Evolves laneBlocks (s.queueShortened l) := by
  unfold State.queueShortened
  split
  · exact State.completeDrain_evolves ..
  · exact (State.testRelease_evolves ..).comp (State.startIdle_evolves ..)

/-! ## The merge and the holds -/

/-- A grant reaches the track, the lanes, the merge arbiter, the audit unit and the ports' queues. -/
theorem State.grant_evolves (s : State) (l : Lane) : s.Evolves mergeBlocks (s.grant l) := by
  unfold State.grant
  split
  · exact .refl _ _
  · dsimp only
    refine State.Evolves.comp (bs := mergeBlocks) ?_ (State.queueShortened_evolves ..)
    refine State.Evolves.comp (bs := mergeBlocks) ?_ (State.traceEntry_evolves ..)
    refine State.Evolves.comp (bs := mergeBlocks) ?_ (State.traceEntry_evolves ..)
    exact .of_fields

theorem State.arbitrateWhile_evolves (fuel : Nat) (s : State) : s.Evolves mergeBlocks (s.arbitrateWhile fuel) := by
  induction fuel generalizing s with
  | zero => exact .refl _ _
  | succ n ih =>
    unfold State.arbitrateWhile
    split
    · exact .refl _ _
    · rename_i l _
      split
      · split
        · refine State.Evolves.trans ?_ (ih _)
          refine State.Evolves.comp (bs := mergeBlocks) (cs := [.merge]) (State.grant_evolves s l) ?_
          exact .of_fields
        · exact State.grant_evolves ..
      · exact .refl _ _

/-- One event of the merge arbiter reaches what a grant can reach. -/
theorem State.arbitrate_evolves (s : State) : s.Evolves mergeBlocks s.arbitrate := State.arbitrateWhile_evolves ..

/-- A change of the hold-cause set reaches the set and what a grant can reach. -/
theorem State.setHolds_evolves (s : State) (h : Holds) : s.Evolves holdBlocks (s.setHolds h) := by
  unfold State.setHolds
  split
  · exact .refl _ _
  · dsimp only
    have h1 : s.Evolves holdBlocks (State.raise { s with holds := h } .holdChange h.flags 0 0 (h.changed s.holds)) := by
      refine State.Evolves.comp (t := { s with holds := h }) (bs := [.holds]) ?_ (State.raise_evolves ..)
      exact .of_fields
    split
    · exact h1.comp (State.arbitrate_evolves ..)
    · exact h1

/-! ## Removal -/

theorem State.holdTrace_evolves (s : State) : s.Evolves [.audit, .ports] s.holdTrace := by
  unfold State.holdTrace
  split
  · refine State.Evolves.comp (t := { s with audit.trace := .held }) (bs := [.audit]) ?_ (State.raise_evolves ..)
    exact .of_fields
  · exact .refl _ _

theorem State.auditRemoval_evolves (s : State) (traced : Bool) (k : Nat) (cause : Cause) :
    s.Evolves [.audit, .ports] (s.auditRemoval traced k cause) := by
  unfold State.auditRemoval
  dsimp only
  split
  · exact (State.traceEntry_evolves ..).comp (State.holdTrace_evolves ..)
  · exact (State.traceEntry_evolves ..).mono

/-- What follows a strip record's removal. -/
theorem State.afterStripRemoval_evolves (s : State) (r : StripRec) (cause : Cause) :
    s.Evolves [.track, .lanes, .fire, .audit, .ports, .choices] (s.afterStripRemoval r cause) :=
  ((State.cancelEntries_evolves ..).comp (ds := [.fire, .audit, .ports]) (State.auditRemoval_evolves ..)).comp
    (State.retest_evolves ..)

/-- What follows a piece record's removal. -/
theorem State.afterPieceRemoval_evolves (s : State) (r : PieceRec) (cause : Cause) :
    s.Evolves removalBlocks (s.afterPieceRemoval r cause) := by
  unfold State.afterPieceRemoval
  dsimp only
  refine State.Evolves.comp (bs := removalBlocks) ?_ (State.retest_evolves ..)
  refine State.Evolves.comp (bs := removalBlocks) ?_ (State.auditRemoval_evolves ..)
  split
  · exact (State.cancelEntries_evolves ..).mono
  · split
    · exact (State.cancelEntries_evolves ..).mono
    · exact (State.cancelEntries_evolves ..).comp (State.lower_evolves ..)

/-- Removal of a belt-list record reaches the blocks of R21. -/
theorem State.removeBelt_evolves (s : State) (x : BeltRec) (cause : Cause) :
    s.Evolves removalBlocks (s.removeBelt x cause) := by
  have h : s.Evolves [.track] { s with track.belt := s.track.belt.erase x } := by
    exact .of_fields
  unfold State.removeBelt
  dsimp only
  split
  · exact h.comp (State.afterStripRemoval_evolves ..)
  · exact h.comp (State.afterPieceRemoval_evolves ..)

/-- Removal of a transit record. -/
theorem State.removeTransit_evolves (s : State) (r : StripRec) (cause : Cause) :
    s.Evolves [.track, .lanes, .fire, .audit, .ports, .choices] (s.removeTransit r cause) := by
  refine State.Evolves.comp (t := { s with track.transit := s.track.transit.erase r }) (bs := [.track]) ?_
    (State.afterStripRemoval_evolves ..)
  exact .of_fields

/-- Removal of a lane queue's front record. -/
theorem State.removeFront_evolves (s : State) (l : Lane) :
    s.Evolves [.track, .lanes, .merge, .fire, .audit, .ports, .choices] (s.removeFront l) := by
  unfold State.removeFront
  split
  · exact .refl _ _
  · dsimp only
    refine State.Evolves.comp (bs := [.track, .lanes, .merge, .audit, .ports]) ?_ (State.afterStripRemoval_evolves ..)
    refine State.Evolves.comp (bs := [.track, .merge]) ?_ (State.queueShortened_evolves ..)
    split
    · exact (State.setQueue_evolves ..).comp (State.setPassedOver_evolves ..)
    · exact (State.setQueue_evolves ..).mono

theorem State.removeFronts_evolves (l : Lane) (n : Nat) (s : State) :
    s.Evolves [.track, .lanes, .merge, .fire, .audit, .ports, .choices] (State.removeFronts l n s) := by
  induction n generalizing s with
  | zero => exact .refl _ _
  | succ n ih => exact (State.removeFront_evolves ..).trans (ih _)

end Sys2Proof.Machine
end

