-- ==== Sys2Proof/Laws/Meanings.lean ====
section
/-! SUPPORT. What the meanings' own operations can do, block by block: the blocks each can reach, and what it
keeps of them. -/

namespace Sys2Proof.Machine

set_option Elab.async false

/-! ## The lanes -/

theorem laneStart_evolves (l : Lane) (s : State) : s.Evolves laneBlocks (laneStart l s).1 := by
  unfold laneStart
  split
  · exact State.enterDelayed_evolves ..
  · exact .refl _ _

theorem laneStop_evolves (l : Lane) (s : State) : s.Evolves laneBlocks (laneStop l s).1 := by
  unfold laneStop
  split
  · exact .refl _ _
  · split
    · dsimp only
      exact (State.modLane_evolves ..).mono
    · exact .refl _ _
  all_goals
    split
    · exact (State.enterLane_evolves ..).mono
    · exact State.enterDrain_evolves ..

theorem laneHold_evolves (l : Lane) (s : State) : s.Evolves laneBlocks (laneHold l s).1 := by
  unfold laneHold
  split <;> first | exact (State.enterLane_evolves ..).mono | exact .refl _ _

theorem laneRun_evolves (l : Lane) (s : State) : s.Evolves laneBlocks (laneRun l s).1 := by
  unfold laneRun
  split
  · exact State.enterRun_evolves ..
  · exact .refl _ _

theorem toolReady_evolves (l : Lane) (s : State) : s.Evolves laneBlocks (toolReady l s).1 := by
  unfold toolReady
  split
  · exact State.enterDelayed_evolves ..
  · exact .refl _ _

theorem laneRecipe_evolves (l : Lane) (r : Recipe) (s : State) : s.Evolves laneBlocks (laneRecipe l r s).1 := by
  unfold laneRecipe
  split <;> first
    | exact .refl _ _
    | (dsimp only; exact (State.modLane_evolves ..).mono)
    | (dsimp only; exact (State.modLane_evolves ..).comp (State.enterDrain_evolves ..))

/-- A command on a lane can do what its rule can do on either lane. -/
theorem takeLane_evolves {bs : List Block} {f : Lane → State → State × Result}
    (hf : ∀ l (s : State), s.Evolves bs (f l s).1) (ps : List Byte) (s : State) :
    s.Evolves bs (takeLane f ps s).1 := by
  unfold takeLane
  split
  · split
    · exact hf ..
    · exact .refl _ _
  · exact .refl _ _
  · exact .refl _ _

theorem takeLaneRecipe_evolves (ps : List Byte) (s : State) : s.Evolves laneBlocks (takeLaneRecipe ps s).1 := by
  unfold takeLaneRecipe
  split
  · split
    · split
      · exact laneRecipe_evolves ..
      · exact .refl _ _
    · exact .refl _ _
  · exact .refl _ _

/-- A group that may fail can do what its effect can do. -/
theorem applyOrFail_evolves {bs : List Block} {t : Option State} {s : State}
    (h : ∀ u, t = some u → s.Evolves bs u) (i : Incremental) : s.Evolves bs (applyOrFail t s i).1 := by
  unfold applyOrFail
  split
  · exact h _ rfl
  · exact .refl _ _

theorem laneConfigApply_evolves (i : Incremental) (bs : List Byte) (s : State) :
    s.Evolves [.lanes] (laneConfigApply i bs s).1 := by
  unfold laneConfigApply
  split <;> try exact .refl _ _
  refine applyOrFail_evolves (fun u hu => ?_) i
  unfold State.applyLaneLimit at hu
  obtain ⟨c, _, rfl⟩ := Option.map_eq_some_iff.mp hu
  exact State.modLane_evolves ..

theorem State.blankReadyActive_evolves (s : State) (l : Lane) : s.Evolves laneBlocks (s.blankReadyActive l) := by
  unfold State.blankReadyActive
  split
  · exact .refl _ _
  · dsimp only
    split
    · exact (State.modLane_evolves ..).comp (State.enterDelayed_evolves ..)
    · exact (State.modLane_evolves ..).comp (State.testRelease_evolves ..)

theorem State.blankReadyInactive_evolves (s : State) (l : Lane) : s.Evolves [.lanes] (s.blankReadyInactive l) := by
  unfold State.blankReadyInactive
  split
  · exact (State.modLane_evolves ..).comp (State.startIdle_evolves ..)
  · exact .refl _ _

theorem State.exitStray_evolves (s : State) (l : Lane) (n : StripNum) : s.Evolves holdBlocks (s.exitStray l n) :=
  (State.lineFault_evolves ..).comp (State.setHolds_evolves ..)

theorem State.frontExits_evolves (s : State) (l : Lane) (r : StripRec) (rest : List StripRec) :
    s.Evolves mergeBlocks (s.frontExits l r rest) := by
  have h : s.Evolves mergeBlocks ((s.setQueue l ({ r with state := .atExit } :: rest)).traceEntry r.traced .atExit 0 0) :=
    (State.setQueue_evolves ..).comp (State.traceEntry_evolves ..)
  unfold State.frontExits
  dsimp only
  split
  · exact h.trans (State.arbitrate_evolves _)
  · exact h

/-- A lead edge at an exit eye reaches what a grant or a change of the hold-cause set can reach. -/
theorem State.exitEye_evolves (s : State) (l : Lane) : s.Evolves holdBlocks (s.exitEye l) := by
  unfold State.exitEye
  split
  · exact State.exitStray_evolves ..
  · split
    · exact (State.frontExits_evolves ..).mono
    · exact State.exitStray_evolves ..

theorem State.releaseEnds_evolves (s : State) (l : Lane) : s.Evolves [.track, .lanes, .audit] (s.releaseEnds l) :=
  (State.modLane_evolves ..).comp (State.testRelease_evolves ..)

theorem State.outfeedEnds_evolves (s : State) (l : Lane) : s.Evolves mergeBlocks (s.outfeedEnds l) := by
  unfold State.outfeedEnds
  dsimp only
  split
  · exact (State.modLane_evolves ..).comp (State.arbitrate_evolves ..)
  · exact (State.modLane_evolves ..).mono

/-! ## The merge gap, the transit list and the entry gauge -/

theorem State.openGap_evolves (s : State) : s.Evolves mergeBlocks s.openGap := by
  refine State.Evolves.comp (t := { s with merge.gapOpen := true }) (bs := [.merge]) ?_ (State.arbitrate_evolves ..)
  exact .of_fields

theorem State.missing_evolves (s : State) (r : StripRec) :
    s.Evolves [.track, .lanes, .fire, .audit, .ports, .choices] (s.missing r) :=
  (State.removeTransit_evolves ..).comp (State.lineFault_evolves ..)

theorem State.timeoutWhile_evolves (fuel : Nat) (s : State) :
    s.Evolves [.track, .lanes, .fire, .audit, .ports, .choices] (s.timeoutWhile fuel) := by
  induction fuel generalizing s with
  | zero => exact .refl _ _
  | succ n ih =>
    unfold State.timeoutWhile
    split
    · exact .refl _ _
    · split
      · exact (State.missing_evolves ..).trans (ih _)
      · exact .refl _ _

theorem State.testTransit_evolves (s : State) :
    s.Evolves [.track, .lanes, .fire, .audit, .ports, .choices] s.testTransit := State.timeoutWhile_evolves ..

theorem State.phantomEye_evolves (s : State) : s.Evolves holdBlocks s.phantomEye :=
  (State.lineFault_evolves ..).comp (State.setHolds_evolves ..)

theorem State.objectStarts_evolves (s : State) :
    s.Evolves [.track, .lanes, .merge, .gauge, .holds, .audit, .ports] s.objectStarts := by
  unfold State.objectStarts
  dsimp only
  split
  · refine State.Evolves.comp (t := { s with
        gauge.eye := .covered, gauge.objectStart := s.track.position, gauge.untracked := true })
      (bs := [.gauge]) ?_ (State.phantomEye_evolves ..)
    exact .of_fields
  · rename_i r rest _
    refine State.Evolves.comp (t := { s with
        gauge.eye := .covered
        gauge.objectStart := s.track.position
        gauge.untracked := false
        track.transit := rest
        track.belt := s.track.belt ++ [.strip (s.led r)] })
      (bs := [.gauge, .track]) ?_ (State.traceEntry_evolves ..)
    exact .of_fields

theorem State.leadEdge_evolves (s : State) :
    s.Evolves [.track, .lanes, .merge, .gauge, .holds, .audit, .ports] s.leadEdge := by
  unfold State.leadEdge
  split
  · exact State.objectStarts_evolves ..
  · exact .of_fields
  · exact .refl _ _

theorem State.planOutOfRange_evolves (s : State) (r : StripRec) (len : Nat) (long : Bool) :
    s.Evolves [.track, .audit, .ports] (s.planOutOfRange r len long) :=
  ((State.modBeltStrip_evolves ..).comp (ds := [.track, .audit]) (State.traceEntry_evolves ..)).comp
    (State.raise_evolves ..)

theorem State.measured_evolves (s : State) (r : StripRec) (len : Nat) : s.Evolves [.track, .ports] (s.measured r len) :=
  (State.modBeltStrip_evolves ..).comp (State.raise_evolves ..)

theorem State.measure_evolves (s : State) (r : StripRec) : s.Evolves [.track, .audit, .ports] (s.measure r) := by
  unfold State.measure
  dsimp only
  split
  · exact (State.traceEntry_evolves ..).comp (State.planOutOfRange_evolves ..)
  · split
    · exact (State.traceEntry_evolves ..).comp (State.planOutOfRange_evolves ..)
    · exact (State.traceEntry_evolves ..).comp (State.measured_evolves ..)

theorem State.objectEnds_evolves (s : State) :
    s.Evolves [.track, .lanes, .merge, .gauge, .holds, .audit, .ports] s.objectEnds := by
  have h : s.Evolves [.gauge] { s with gauge.eye := .clear } := .of_fields
  unfold State.objectEnds
  dsimp only
  split
  · exact h.comp (State.measure_evolves ..)
  · split
    · exact .of_fields
    · exact h.comp (State.phantomEye_evolves ..)

theorem State.trailEdge_evolves (s : State) :
    s.Evolves [.track, .lanes, .merge, .gauge, .holds, .audit, .ports] s.trailEdge := by
  unfold State.trailEdge
  split
  · split
    · exact .of_fields
    · exact State.objectEnds_evolves ..
  · exact .refl _ _
  · exact .refl _ _

theorem State.cutOff_evolves (s : State) (r : StripRec) :
    s.Evolves [.track, .gauge, .audit, .ports] (s.cutOff r) := by
  have h : s.Evolves [.track, .audit, .ports]
      ((s.traceEntry r.traced .eyeTrail 0 0).planOutOfRange r (s.travel r) true) :=
    (State.traceEntry_evolves ..).comp (State.planOutOfRange_evolves ..)
  unfold State.cutOff
  dsimp only
  generalize ((s.traceEntry r.traced .eyeTrail 0 0).planOutOfRange r (s.travel r) true) = t at h ⊢
  exact h.comp (cs := [.gauge]) .of_fields

theorem State.testCutOff_evolves (s : State) : s.Evolves [.track, .gauge, .audit, .ports] s.testCutOff := by
  unfold State.testCutOff
  split
  · exact State.cutOff_evolves ..
  · exact .refl _ _

/-! ## Grading -/

theorem mapApply_evolves (i : Incremental) (bs : List Byte) (s : State) : s.Evolves [.grading] (mapApply i bs s).1 := by
  unfold mapApply
  split
  · unfold gradeByte
    split
    · exact .refl _ _
    · split <;> try exact .refl _ _
      unfold writeGrade
      split
      · exact .of_fields
      · exact .refl _ _
  · exact .refl _ _

theorem takeMapCommit_evolves (ps : List Byte) (s : State) : s.Evolves [.grading] (takeMapCommit ps s).1 := .of_fields

theorem takeGradeMode_evolves (ps : List Byte) (s : State) : s.Evolves [.grading] (takeGradeMode ps s).1 := by
  unfold takeGradeMode
  split
  · split
    · exact .of_fields
    · exact .refl _ _
  · exact .refl _ _

theorem State.planStrip_evolves (s : State) (c : Grading.Command) (source : PlanSource) (r : StripRec) :
    s.Evolves [.track, .audit] (s.planStrip c source r) :=
  (State.modBeltStrip_evolves ..).comp (State.traceEntry_evolves ..)

theorem examine_evolves (source : PlanSource) (c : Grading.Command) (s : State) :
    s.Evolves [.track, .audit] (examine source c s).1 := by
  unfold examine
  split
  · exact .refl _ _
  · split
    · exact .refl _ _
    · split
      · exact .refl _ _
      · split
        · exact State.planStrip_evolves ..
        · exact .refl _ _

theorem takeGrading_evolves (source : PlanSource) (ps : List Byte) (s : State) :
    s.Evolves [.track, .audit] (takeGrading source ps s).1 := by
  unfold takeGrading
  split
  · exact examine_evolves ..
  · exact .refl _ _

theorem State.verdictLate_evolves (s : State) (r : StripRec) : s.Evolves [.ports] (s.verdictLate r) := by
  unfold State.verdictLate
  dsimp only
  split
  · exact State.raise_evolves ..
  · exact (State.raise_evolves ..).comp (State.raiseAt_evolves ..)

theorem State.defaultStrip_evolves (s : State) (r : StripRec) : s.Evolves [.track, .audit, .ports] (s.defaultStrip r) :=
  ((State.modBeltStrip_evolves ..).comp (ds := [.track, .audit]) (State.traceEntry_evolves ..)).comp
    (State.verdictLate_evolves ..)

theorem State.deadlineArrival_evolves (s : State) (n : StripNum) :
    s.Evolves [.track, .audit, .ports] (s.deadlineArrival n) := by
  unfold State.deadlineArrival
  split
  · split
    · exact State.defaultStrip_evolves ..
    · exact .refl _ _
  · exact .refl _ _

/-! ## The cut planner and the fire sequencer -/

theorem State.trimFault_evolves (s : State) (r : StripRec) (plan : Plan) :
    s.Evolves [.track, .audit, .ports] (s.trimFault r plan) :=
  (State.replaceStrip_evolves ..).comp (State.lineFault_evolves ..)

theorem State.split_evolves (s : State) (r : StripRec) (plan : Plan) :
    s.Evolves [.track, .lanes, .fire, .audit, .ports, .choices] (s.split r plan) := by
  unfold State.split
  split
  · rename_i t h
    exact ((State.placeGroup_evolves h).comp (ds := [.track, .fire]) (State.replaceStrip_evolves ..)).comp
      (State.retest_evolves ..)
  · exact (State.trimFault_evolves ..).comp (State.retest_evolves ..)

theorem State.trimArrival_evolves (s : State) (n : StripNum) :
    s.Evolves [.track, .lanes, .fire, .audit, .ports, .choices] (s.trimArrival n) := by
  unfold State.trimArrival
  split
  · split
    · split
      · exact State.split_evolves ..
      · exact .refl _ _
    · exact .refl _ _
  · exact .refl _ _

/-- What an outcome changes in its owner: the pieces of the belt list, and the schedule. -/
theorem State.handOn_evolves (s : State) (e : FireEntry) (o : FireOutcome) :
    s.Evolves [.track, .fire] (s.handOn e o) := by
  unfold State.handOn
  split
  · exact .refl _ _
  · exact (State.modPieces_evolves ..).comp (State.cancelEntries_evolves ..)
  · exact (State.modPiece_evolves ..).mono
  · exact (State.modPiece_evolves ..).comp (State.cancelEntries_evolves ..)
  · exact (State.modPiece_evolves ..).mono
  · exact (State.modPiece_evolves ..).comp (State.cancelEntries_evolves ..)
  · exact .refl _ _
  · exact .refl _ _

theorem State.reportMiss_evolves (s : State) (e : FireEntry) (o : FireOutcome) :
    s.Evolves [.audit, .ports] (s.reportMiss e o) := by
  cases o
  · exact .refl _ _
  · exact (State.raise_evolves ..).comp (State.offerFault_evolves ..)

theorem State.report_evolves (s : State) (e : FireEntry) (o : FireOutcome) :
    s.Evolves [.track, .fire, .audit, .ports] (s.report e o) :=
  ((State.traceEntry_evolves ..).comp (ds := [.audit, .ports]) (State.reportMiss_evolves ..)).comp
    (State.handOn_evolves ..)

/-- A request begins no pulse while the guard is open. -/
theorem Channel.request_guarded (c : Channel) (h : c.isPulsing = false) : (c.request true).isPulsing = false := by
  unfold Channel.request Channel.answer
  simpa using h

theorem State.sendRequest_evolves (s : State) (e : FireEntry) :
    s.Evolves [.track, .fire, .audit, .ports] (s.sendRequest e) := by
  refine State.Evolves.comp (bs := [.fire]) (State.modChannel_evolves _ _ _ fun ho hp => ?_) (State.report_evolves ..)
  rw [ho]
  exact Channel.request_guarded _ hp

theorem State.fireRequest_evolves (s : State) (c : ChannelId) :
    s.Evolves [.track, .fire, .audit, .ports] (s.fireRequest c) := by
  unfold State.fireRequest
  split
  · refine State.Evolves.comp (t := { s with fire.schedule := s.fire.schedule.eraseP (s.entryDue c) }) (bs := [.fire]) ?_
      (State.sendRequest_evolves ..)
    exact .of_fields (schedule := fun h => (List.length_eraseP_le ..).trans h)
  · exact .refl _ _

theorem Channel.isPulsing_toIdle (c : Channel) : c.toIdle.isPulsing = false := rfl

theorem Channel.isPulsing_endPulse (c : Channel) : c.endPulse.isPulsing = false := by
  unfold Channel.endPulse
  split <;> rfl

theorem Channel.isPulsing_cutShort (c : Channel) : c.cutShort.isPulsing = false := by
  unfold Channel.cutShort
  split
  · exact Channel.isPulsing_endPulse _
  · rename_i h; simp [Channel.isPulsing, h, ChannelState.code]
  · rename_i h; simp [Channel.isPulsing, h, ChannelState.code]

/-- R96: a pulse that ends, or a recovery that ends, starts none. -/
theorem State.endPulse_evolves (s : State) (c : ChannelId) : s.Evolves [.fire] (s.modChannel c Channel.endPulse) :=
  State.modChannel_evolves _ _ _ fun _ _ => Channel.isPulsing_endPulse _

theorem State.toIdle_evolves (s : State) (c : ChannelId) : s.Evolves [.fire] (s.modChannel c Channel.toIdle) :=
  State.modChannel_evolves _ _ _ fun _ _ => Channel.isPulsing_toIdle _

theorem State.cutPulses_evolves (s : State) : s.Evolves [.fire, .guardInput] s.cutPulses := by
  refine .of_fields (guarded := fun _ _ c => ?_)
  simp only [State.channel, State.cutPulses, Fin.getElem_fin, Vector.getElem_map]
  exact Channel.isPulsing_cutShort _

/-- The guard's opening. -/
theorem State.openGuard_evolves (s : State) :
    s.Evolves [.track, .lanes, .merge, .fire, .holds, .audit, .ports, .guardInput] s.openGuard :=
  ((State.cutPulses_evolves s).comp (ds := [.fire, .guardInput, .audit, .ports]) (State.lineFault_evolves ..)).comp
    (State.setHolds_evolves ..)

theorem State.closeGuard_evolves (s : State) : s.Evolves [.guardInput] { s with guardOpen := false } :=
  .of_fields (guarded := fun _ h => Bool.noConfusion h)

theorem Channel.isPulsing_setTiming (c : Channel) (t : Timing) : (c.setTiming t).isPulsing = c.isPulsing := by
  unfold Channel.setTiming
  split <;> rfl

theorem channelSetApply_evolves (i : Incremental) (bs : List Byte) (s : State) :
    s.Evolves [.fire] (channelSetApply i bs s).1 := by
  unfold channelSetApply
  split <;> try exact .refl _ _
  refine applyOrFail_evolves (fun u hu => ?_) i
  unfold State.applyTiming at hu
  split at hu
  · obtain ⟨c, _, rfl⟩ := Option.map_eq_some_iff.mp hu
    exact State.modChannel_evolves _ _ _ fun _ h => by rw [Channel.isPulsing_setTiming]; exact h
  · cases hu

/-! ## Sorting, drops and the bins -/

theorem State.testReject_evolves (s : State) : s.Evolves holdBlocks s.testReject := by
  unfold State.testReject
  split
  · exact State.setHolds_evolves ..
  · exact .refl _ _

theorem State.testRunout_evolves (s : State) : s.Evolves holdBlocks s.testRunout := by
  unfold State.testRunout
  split
  · exact State.setHolds_evolves ..
  · exact .refl _ _

theorem takeRejectCleared_evolves (ps : List Byte) (s : State) :
    s.Evolves [.track, .lanes, .merge, .bins, .holds, .audit, .ports] (takeRejectCleared ps s).1 := by
  refine State.Evolves.comp (t := { s with bnc.reject.dropped := 0 }) (bs := [.bins]) ?_ (State.setHolds_evolves ..)
  exact .of_fields

theorem State.unallocated_evolves (s : State) (r : PieceRec) : s.Evolves [.track, .audit] (s.unallocated r) :=
  (State.modPiece_evolves ..).comp (State.traceEntry_evolves ..)

theorem State.gateRefused_evolves (s : State) (r : PieceRec) (b : GateId) :
    s.Evolves [.track, .audit, .ports] (s.gateRefused r b) :=
  ((State.modPiece_evolves ..).comp (ds := [.track, .audit, .ports]) (State.lineFault_evolves ..)).comp
    (State.traceEntry_evolves ..)

theorem State.commitOrder_evolves (s : State) (i : BinId) (r : PieceRec) (ends : Pos) (o : Order) :
    s.Evolves [.bins, .ports] (s.commitOrder i r ends o) := by
  unfold State.commitOrder
  dsimp only
  split
  · exact (State.modBin_evolves ..).comp (State.enterBin_evolves ..)
  · exact (State.modBin_evolves ..).mono

theorem State.commitReject_evolves (s : State) (r : PieceRec) (ends : Pos) : s.Evolves [.bins] (s.commitReject r ends) :=
  .of_fields

theorem State.assignPiece_evolves (s : State) (r : PieceRec) (b : GateId) : s.Evolves [.track] (s.assignPiece r b) :=
  State.modPiece_evolves ..

theorem State.assignOrder_evolves (s : State) (r : PieceRec) (i : BinId) (o : Order) :
    s.Evolves [.track, .fire, .bins, .audit, .ports] (s.assignOrder r i o) := by
  unfold State.assignOrder
  split
  · exact (State.gateRefused_evolves ..).mono
  · rename_i t h
    exact (((State.placeGroup_evolves h).comp (ds := [.track, .fire]) (State.assignPiece_evolves ..)).comp
      (ds := [.track, .fire, .bins, .ports]) (State.commitOrder_evolves ..)).comp (State.traceEntry_evolves ..)

theorem State.assignReject_evolves (s : State) (r : PieceRec) :
    s.Evolves [.track, .fire, .bins, .audit, .ports] (s.assignReject r) := by
  unfold State.assignReject
  split
  · exact (State.gateRefused_evolves ..).mono
  · rename_i t h
    exact (((State.placeGroup_evolves h).comp (ds := [.track, .fire]) (State.assignPiece_evolves ..)).comp
      (ds := [.track, .fire, .bins]) (State.commitReject_evolves ..)).comp (State.traceEntry_evolves ..)

theorem State.sortArrival_evolves (s : State) (n : StripNum) (k : Nat) :
    s.Evolves [.track, .fire, .bins, .audit, .ports] (s.sortArrival n k) := by
  unfold State.sortArrival
  split
  · split
    · unfold State.sortPiece
      split
      · split
        · exact State.assignReject_evolves ..
        · exact (State.unallocated_evolves ..).mono
      · split
        · exact State.assignOrder_evolves ..
        · exact (State.unallocated_evolves ..).mono
    · exact .refl _ _
  · exact .refl _ _

theorem State.removeDropped_evolves (s : State) (r : Option PieceRec) : s.Evolves removalBlocks (s.removeDropped r) := by
  unfold State.removeDropped
  split
  · exact State.removeBelt_evolves ..
  · exact .refl _ _

theorem State.dropOrder_evolves (s : State) (i : BinId) (e : Expected) : s.Evolves removalBlocks (s.dropOrder i e) := by
  unfold State.dropOrder
  dsimp only
  exact (((State.modBin_evolves ..).comp (ds := removalBlocks) (State.removeDropped_evolves ..)).comp
    (ds := removalBlocks) (State.completeBin_evolves ..)).comp (State.settleBin_evolves ..)

theorem State.dropReject_evolves (s : State) (e : Expected) :
    s.Evolves [.track, .lanes, .merge, .fire, .book, .bins, .holds, .audit, .ports, .choices] (s.dropReject e) := by
  have h : s.Evolves [.bins] { s with bnc.reject := ⟨s.bnc.reject.dropped + 1, s.bnc.reject.expected.tail⟩ } := .of_fields
  unfold State.dropReject
  dsimp only
  exact (h.comp (ds := removalBlocks) (State.removeDropped_evolves ..)).comp (State.testReject_evolves ..)

theorem State.strayDrop_evolves (s : State) (b : GateId) : s.Evolves holdBlocks (s.strayDrop b) :=
  (State.lineFault_evolves ..).comp (State.setHolds_evolves ..)

theorem State.dropPulse_evolves (s : State) (b : GateId) :
    s.Evolves [.track, .lanes, .merge, .fire, .book, .bins, .holds, .audit, .ports, .choices] (s.dropPulse b) := by
  unfold State.dropPulse
  split
  · exact (State.strayDrop_evolves ..).mono
  · split
    · exact (State.dropOrder_evolves ..).mono
    · exact State.dropReject_evolves ..

theorem State.misdrop_evolves (s : State) (b : GateId) (n : StripNum) (k : Nat) :
    s.Evolves [.track, .book, .bins, .audit, .ports] (s.misdrop b n k) := by
  unfold State.misdrop
  dsimp only
  exact (((State.lower_evolves ..).comp (ds := [.track, .book, .bins, .ports]) (State.modPiece_evolves ..)).comp
    (ds := [.track, .book, .bins, .audit, .ports]) (State.traceEntry_evolves ..)).comp (State.lineFault_evolves ..)

theorem State.windowEnds_evolves (s : State) (b : GateId) (n : StripNum) (k : Nat) :
    s.Evolves [.track, .book, .bins, .audit, .ports] (s.windowEnds b n k) := by
  unfold State.windowEnds
  split
  · exact State.misdrop_evolves ..
  · exact .refl _ _

theorem serviceOff_evolves (b : BinId) (s : State) : s.Evolves binBlocks (serviceOff b s).1 := by
  unfold serviceOff
  split
  · exact (State.enterBin_evolves ..).mono
  · exact .refl _ _

theorem serviceOn_evolves (b : BinId) (s : State) : s.Evolves binBlocks (serviceOn b s).1 := by
  unfold serviceOn
  split
  · exact (State.enterBin_evolves ..).comp (State.runArbiter_evolves ..)
  · exact .refl _ _

theorem takeBinService_evolves (ps : List Byte) (s : State) : s.Evolves binBlocks (takeBinService ps s).1 := by
  unfold takeBinService
  split
  · split
    · split
      · exact serviceOff_evolves ..
      · split
        · exact serviceOn_evolves ..
        · exact .refl _ _
    · exact .refl _ _
  · exact .refl _ _

theorem State.refill_evolves (s : State) (b : BinId) (o : Order) : s.Evolves binBlocks (s.refill b o) :=
  ((State.modBin_evolves ..).comp (ds := binBlocks) (State.enterBin_evolves ..)).comp (State.modOrder_evolves ..)

theorem clearBin_evolves (b : BinId) (s : State) : s.Evolves binBlocks (clearBin b s).1 := by
  unfold clearBin
  split
  · split
    · exact State.refill_evolves ..
    · exact State.giveBack_evolves ..
  · exact .refl _ _

theorem takeBinCleared_evolves (ps : List Byte) (s : State) : s.Evolves binBlocks (takeBinCleared ps s).1 := by
  unfold takeBinCleared
  split
  · split
    · exact clearBin_evolves ..
    · exact .refl _ _
  · exact .refl _ _

/-! ## The order book -/

theorem suspendOrder_evolves (o : Order) (s : State) : s.Evolves binBlocks (suspendOrder o s).1 := by
  unfold suspendOrder
  split <;> first | exact (State.enterOrder_evolves ..).mono | exact .refl _ _

theorem resumeOrder_evolves (o : Order) (s : State) : s.Evolves binBlocks (resumeOrder o s).1 := by
  unfold resumeOrder
  split
  · exact (State.enterOrder_evolves ..).comp (State.runArbiter_evolves ..)
  · exact .refl _ _

theorem addBundles_evolves (n : Nat) (o : Order) (s : State) : s.Evolves binBlocks (addBundles n o s).1 := by
  unfold addBundles
  split
  · exact .refl _ _
  · split <;> first | exact (State.modOrder_evolves ..).comp (State.runArbiter_evolves ..) | exact .refl _ _

theorem cancelOrder_evolves (o : Order) (s : State) : s.Evolves binBlocks (cancelOrder o s).1 := by
  unfold cancelOrder
  split
  all_goals first
    | exact .refl _ _
    | (split
       · exact (State.enterOrder_evolves ..).mono
       · exact (State.enterOrder_evolves ..).comp
           (State.Evolves.foldl State.drainBin (fun s b => State.drainBin_evolves s b) _ _))

/-- A command that names an order can do what its rule can do on any order. -/
theorem onOrder_evolves {bs : List Block} {f : Order → State → State × Result}
    (hf : ∀ o (s : State), s.Evolves bs (f o s).1) (i : OrderId) (s : State) : s.Evolves bs (onOrder f i s).1 := by
  unfold onOrder
  split
  · exact .refl _ _
  · split
    · exact hf ..
    · exact .refl _ _

theorem takeOrder_evolves {bs : List Block} {f : Order → State → State × Result}
    (hf : ∀ o (s : State), s.Evolves bs (f o s).1) (ps : List Byte) (s : State) : s.Evolves bs (takeOrder f ps s).1 := by
  unfold takeOrder
  split
  · exact onOrder_evolves hf ..
  · exact .refl _ _

theorem takeOrderAdd_evolves (ps : List Byte) (s : State) : s.Evolves binBlocks (takeOrderAdd ps s).1 := by
  unfold takeOrderAdd
  split
  · exact onOrder_evolves (addBundles_evolves _) ..
  · exact .refl _ _

/-! ## The track's own commands, HOLD, RESUME and the sample interval -/

theorem State.removeTransits_evolves (s : State) (rs : List StripRec) :
    s.Evolves [.track, .lanes, .fire, .audit, .ports, .choices] (s.removeTransits rs) :=
  State.Evolves.foldl _ (fun _ _ => State.removeTransit_evolves ..) _ _

theorem State.removeBelts_evolves (s : State) (xs : List BeltRec) : s.Evolves removalBlocks (s.removeBelts xs) :=
  State.Evolves.foldl _ (fun _ _ => State.removeBelt_evolves ..) _ _

theorem removeStrip_evolves (n : StripNum) (s : State) : s.Evolves removalBlocks (removeStrip n s).1 := by
  unfold removeStrip
  split <;> try exact .refl _ _
  split <;> try exact .refl _ _
  split <;> try exact .refl _ _
  split <;> try exact .refl _ _
  exact (State.removeTransits_evolves ..).comp (State.removeBelts_evolves ..)

theorem takeRemoveStrip_evolves (ps : List Byte) (s : State) : s.Evolves removalBlocks (takeRemoveStrip ps s).1 := by
  unfold takeRemoveStrip
  split
  · exact removeStrip_evolves ..
  · exact .refl _ _

theorem removeSpan_evolves (a b : Pos) (s : State) : s.Evolves removalBlocks (removeSpan a b s).1 := by
  unfold removeSpan
  split <;> try exact .refl _ _
  split <;> try exact .refl _ _
  exact State.removeBelts_evolves ..

theorem takeRemoveSpan_evolves (ps : List Byte) (s : State) : s.Evolves removalBlocks (takeRemoveSpan ps s).1 := by
  unfold takeRemoveSpan
  split
  · exact removeSpan_evolves ..
  · exact .refl _ _

theorem removeLane_evolves (l : Lane) (s : State) : s.Evolves removalBlocks (removeLane l s).1 := by
  unfold removeLane
  split <;> try exact .refl _ _
  split <;> try exact .refl _ _
  exact (State.removeFronts_evolves ..).mono

theorem Audit.cleared_entries (a : Audit) (h : a.entries.length ≤ 48) : a.cleared.entries.length ≤ 48 := by
  unfold Audit.cleared
  split
  · exact Nat.zero_le _
  · exact h

theorem State.emptied_evolves (s : State) : s.Evolves [.track, .merge, .gauge, .fire, .bins, .audit] s.emptied :=
  .of_fields (schedule := fun _ => Nat.zero_le _) (entries := Audit.cleared_entries _)

theorem State.reopenAll_evolves (s : State) : s.Evolves binBlocks s.reopenAll :=
  State.Evolves.foldl State.reopenBin State.reopenBin_evolves (List.finRange 10) s

/-- LINE_CLEAR leaves the lanes, the hold-cause set, the inputs and the time alone. -/
theorem State.lineClear_evolves (s : State) :
    s.Evolves [.track, .merge, .gauge, .fire, .book, .bins, .audit, .ports] s.lineClear := by
  unfold State.lineClear
  generalize s.allocated = n
  have h := State.emptied_evolves s
  generalize s.emptied = t at h ⊢
  have k := State.reopenAll_evolves t
  generalize t.reopenAll = u at k ⊢
  have g := State.raise_evolves u .lineCleared 0 0 0 n
  exact (h.comp k (ds := [.track, .merge, .gauge, .fire, .book, .bins, .audit, .ports])).comp g

theorem takeLineClear_evolves (ps : List Byte) (s : State) :
    s.Evolves [.track, .merge, .gauge, .fire, .book, .bins, .audit, .ports] (takeLineClear ps s).1 := by
  unfold takeLineClear
  have h := State.lineClear_evolves s
  generalize s.lineClear = t at h ⊢
  split
  · exact .refl _ _
  · split
    · exact h
    · exact .refl _ _

theorem takeHold_evolves (ps : List Byte) (s : State) : s.Evolves holdBlocks (takeHold ps s).1 :=
  State.setHolds_evolves ..

theorem takeResume_evolves (ps : List Byte) (s : State) : s.Evolves holdBlocks (takeResume ps s).1 :=
  State.setHolds_evolves ..

theorem takeSampleSet_evolves (ps : List Byte) (s : State) : s.Evolves [.audit] (takeSampleSet ps s).1 := by
  unfold takeSampleSet
  split
  · split
    · exact .of_fields
    · exact .refl _ _
  · exact .refl _ _

theorem State.setBeltRun_evolves (s : State) (v : Bool) : s.Evolves [.beltRunInput] { s with beltRun := v } := .of_fields

end Sys2Proof.Machine
end

