-- ==== Sys2Proof/Laws/Numbers.lean ====
section
/-! SUPPORT. The strip number of a release (R9): the search for it, and that it finds a number that no record
carries. -/

namespace Sys2Proof.Machine

set_option Elab.async false

/-- The search takes the first number that is neither 0 nor used, when there is one in its reach. -/
theorem nextNumber_first (used : StripNum → Bool) (fuel : Nat) (n : StripNum)
    (h : ∃ d < fuel, n + BitVec.ofNat 16 (d + 1) ≠ 0 ∧ used (n + BitVec.ofNat 16 (d + 1)) = false) :
    ∃ d, nextNumber used fuel n = n + BitVec.ofNat 16 (d + 1) ∧ nextNumber used fuel n ≠ 0 ∧
      used (nextNumber used fuel n) = false ∧
      ∀ j, j < d → n + BitVec.ofNat 16 (j + 1) = 0 ∨ used (n + BitVec.ofNat 16 (j + 1)) = true := by
  have shift : ∀ (m : StripNum) (j : Nat), m + 1 + BitVec.ofNat 16 (j + 1) = m + BitVec.ofNat 16 (j + 1 + 1) := by
    intro m j
    rw [BitVec.ofNat_add (j + 1) 1, BitVec.add_comm (BitVec.ofNat 16 (j + 1)), ← BitVec.add_assoc]
    rfl
  induction fuel generalizing n with
  | zero => obtain ⟨d, hd, -⟩ := h; omega
  | succ fuel ih =>
    unfold nextNumber
    by_cases hc : n + 1 = 0 ∨ used (n + 1) = true
    · rw [if_pos (by simpa using hc)]
      obtain ⟨d, hd, h0, hu⟩ := h
      have hd0 : d ≠ 0 := by
        rintro rfl
        rcases hc with hc | hc
        · exact h0 hc
        · rw [show n + BitVec.ofNat 16 (0 + 1) = n + 1 from rfl, hc] at hu; cases hu
      obtain ⟨e, rfl⟩ := Nat.exists_eq_succ_of_ne_zero hd0
      obtain ⟨k, hk, hk0, hku, hall⟩ := ih (n + 1) ⟨e, by omega, by rw [shift]; exact ⟨h0, hu⟩⟩
      refine ⟨k + 1, by rw [hk, shift], hk0, hku, fun j hj => ?_⟩
      match j with
      | 0 => exact hc
      | j + 1 => rw [← shift]; exact hall j (by omega)
    · have hc' := hc
      push Not at hc'
      rw [if_neg (by simpa using hc)]
      exact ⟨0, rfl, hc'.1, by simpa using hc'.2, fun j hj => absurd hj (by omega)⟩

/-- Of the numbers in a list shorter than the search, some number in reach is not. -/
theorem number_outside (xs : List StripNum) (n : StripNum) (hl : xs.length < 65535) :
    ∃ d < 65536, n + BitVec.ofNat 16 (d + 1) ≠ 0 ∧ n + BitVec.ofNat 16 (d + 1) ∉ xs := by
  by_contra hcon
  push Not at hcon
  have hsub : (Finset.univ : Finset StripNum) ⊆ (0 :: xs).toFinset := by
    intro m _
    rw [List.mem_toFinset, List.mem_cons]
    by_cases hm : m = 0
    · exact .inl hm
    · right
      have hval : n + BitVec.ofNat 16 ((m - n - 1).toNat + 1) = m := by
        rw [BitVec.ofNat_add, BitVec.ofNat_toNat, BitVec.setWidth_eq]
        bv_omega
      have := hcon (m - n - 1).toNat (m - n - 1).isLt (by rw [hval]; exact hm)
      rwa [hval] at this
  have hcard := Finset.card_le_card hsub
  have huniv : (Finset.univ : Finset StripNum).card = 65536 := by
    rw [Finset.card_univ, Fintype.card_congr (BitVec.equivFin.toEquiv), Fintype.card_fin]; rfl
  have hle := List.toFinset_card_le (0 :: xs)
  simp only [List.length_cons] at hle
  omega

/-- Every strip number a record carries. -/
def State.numbers (s : State) : List StripNum := s.strips.map StripRec.number ++ s.pieces.map PieceRec.number

theorem State.carried_iff (s : State) (n : StripNum) : s.carried n = true ↔ n ∈ s.numbers := by
  unfold State.carried State.numbers
  simp [List.any_eq_true]

theorem State.numbers_length (s : State) : s.numbers.length = s.allocated := by
  unfold State.numbers State.strips State.pieces State.allocated State.beltStrips
  have : ∀ l : List BeltRec, (l.filterMap BeltRec.strip?).length + (l.filterMap BeltRec.piece?).length = l.length := by
    intro l
    induction l with
    | nil => rfl
    | cons x xs ih => cases x <;> simp [List.filterMap_cons, BeltRec.strip?, BeltRec.piece?] <;> omega
  have h := this s.track.belt
  simp only [List.length_append, List.length_map]
  omega

/-- R9: while the pool holds no more than its records, a release finds the first number after the last one that
is neither 0 nor carried. -/
theorem State.newNumber_first (s : State) (h : s.allocated ≤ 128) :
    ∃ d, s.newNumber = s.track.lastNumber + BitVec.ofNat 16 (d + 1) ∧ s.newNumber ≠ 0 ∧
      s.carried s.newNumber = false ∧
      ∀ j, j < d → s.track.lastNumber + BitVec.ofNat 16 (j + 1) = 0 ∨
        s.carried (s.track.lastNumber + BitVec.ofNat 16 (j + 1)) = true := by
  refine nextNumber_first s.carried 65536 s.track.lastNumber ?_
  obtain ⟨d, hd, h0, hu⟩ := number_outside s.numbers s.track.lastNumber (by rw [s.numbers_length]; omega)
  refine ⟨d, hd, h0, ?_⟩
  rw [← Bool.not_eq_true, s.carried_iff]
  exact hu

end Sys2Proof.Machine
end

