-- ==== Sys2Proof/Laws/Ports.lean ====
section
/-! SUPPORT. The framing of the station ports: the kind of step each command's frame is, and what a step of
each kind does on a port with no frame, on one with a frame of its own, and on any other. -/

namespace Sys2Proof.Machine

set_option Elab.async false

/-! ## The kind of a frame step -/

/-- A whole command's frame is a step of the whole kind, by the command's own rule. -/
theorem exec_whole {c : Cmd} {n : Nat} (h : c.row.kind = .whole n) :
    ∃ take, ∀ p st s, exec (frameInstr c p st) s = .next (wholeStep c take p st s) := by
  cases c <;> first | exact ⟨_, fun _ _ _ => rfl⟩ | cases h

/-- A read command's frame is a step of the read kind, by the command's own answer. -/
theorem exec_read {c : Cmd} {n : Nat} (h : c.row.kind = .read n) :
    ∃ answer, ∀ p st s, exec (frameInstr c p st) s = .next (readStep c answer p st s) := by
  cases c <;> first | exact ⟨_, fun _ _ _ => rfl⟩ | cases h

/-- An incremental command's frame is a step of the incremental kind, by the command's own groups. -/
theorem exec_incremental {c : Cmd} (h : c.row.kind = .incremental) :
    ∃ g : Grouped, g.cmd = c ∧ ∀ p st s, exec (frameInstr c p st) s = .next (groupedStep g p st s) := by
  cases c <;> first
    | exact ⟨limitsGrouped, rfl, fun _ _ _ => rfl⟩
    | exact ⟨laneConfigGrouped, rfl, fun _ _ _ => rfl⟩
    | exact ⟨channelSetGrouped, rfl, fun _ _ _ => rfl⟩
    | exact ⟨mapGrouped, rfl, fun _ _ _ => rfl⟩
    | cases h

/-! ## The frame of a port -/

theorem State.phaseOf_none {s : State} {p : PortId} (code : Byte) (h : (s.port p).frame = none) :
    s.phaseOf p code = none := by
  unfold State.phaseOf; rw [h]

theorem State.phaseOf_some {s : State} {p : PortId} {code : Byte} {ph : Phase}
    (h : (s.port p).frame = some ⟨code, ph⟩) : s.phaseOf p code = some ph := by
  unfold State.phaseOf; rw [h]; simp

@[simp] theorem State.port_setPhase (s : State) (p q : PortId) (code : Byte) (ph : Phase) :
    (s.setPhase p code ph).port q = if q = p then { s.port p with frame := some ⟨code, ph⟩ } else s.port q := by
  simp [State.setPhase]

@[simp] theorem State.port_setResult (s : State) (p q : PortId) (r : Result) :
    (s.setResult p r).port q = if q = p then { s.port p with result := r } else s.port q := by
  simp [State.setResult]

@[simp] theorem State.port_closeFrame (s : State) (p q : PortId) (r : Result) :
    (s.closeFrame p r).port q = if q = p then { s.port p with result := r, frame := none } else s.port q := by
  simp [State.closeFrame]

@[simp] theorem State.phaseOf_setPhase (s : State) (p : PortId) (code : Byte) (ph : Phase) :
    (s.setPhase p code ph).phaseOf p code = some ph := State.phaseOf_some (by simp)

/-- Two changes of one port are one change. -/
@[simp] theorem State.modPort_modPort (s : State) (p : PortId) (f g : Port → Port) :
    (s.modPort p f).modPort p g = s.modPort p fun q => g (f q) := by
  simp [State.modPort]

theorem State.setPhase_self {s : State} {p : PortId} {code : Byte} {ph : Phase}
    (h : (s.port p).frame = some ⟨code, ph⟩) : s.setPhase p code ph = s := by
  have hq : ({ s.port p with frame := some ⟨code, ph⟩ } : Port) = s.port p := by rw [← h]
  have hs : s.ports.set p.val (s.port p) p.isLt = s.ports := Vector.set_getElem_self _
  show { s with ports := s.ports.set p.val { s.port p with frame := some ⟨code, ph⟩ } p.isLt } = s
  rw [hq, hs]

@[simp] theorem State.setPhase_setPhase (s : State) (p : PortId) (c d : Byte) (ph qh : Phase) :
    (s.setPhase p c ph).setPhase p d qh = s.setPhase p d qh := by simp [State.setPhase]

/-! ## Whole commands -/

section
variable (c : Cmd) (take : List Byte → State → State × Result) {p : PortId} {s : State}

/-- The whole frame at once, from a port whose role may issue the command. -/
theorem wholeStep_ready (h : s.ready p c) (bs : List Byte) :
    wholeStep c take p (.ends bs) s = takeWhole c take p bs s := by
  simp [wholeStep, h.1, wholeAtOnce, h.2]

/-- The whole frame at once, taken: its effect, and then the result code. -/
theorem wholeStep_taken (h : s.ready p c) {bs : List Byte} (hb : bs.length = cmdParams c) :
    wholeStep c take p (.ends bs) s = ((take bs s).1).setResult p (take bs s).2 := by
  rw [wholeStep_ready c take h, takeWhole, if_pos hb]

/-- The whole frame at once, of the wrong length. -/
theorem wholeStep_length (h : s.ready p c) {bs : List Byte} (hb : bs.length ≠ cmdParams c) :
    wholeStep c take p (.ends bs) s = s.setResult p .length := by
  rw [wholeStep_ready c take h, takeWhole, if_neg hb]

/-- The whole frame at once, from a port whose role may not issue the command. -/
theorem wholeStep_role (hf : (s.port p).frame = none) (hr : (s.port p).role.mayIssue c = false) (bs : List Byte) :
    wholeStep c take p (.ends bs) s = s.setResult p .role := by
  simp [wholeStep, hf, wholeAtOnce, hr]

theorem wholeStep_opens (hf : (s.port p).frame = none) : wholeStep c take p .opens s =
    s.setPhase p c.code (if (s.port p).role.mayIssue c then .whole [] else .refused .role) := by
  simp [wholeStep, hf, openWhole]

theorem wholeStep_bytes {buf : List Byte} (h : (s.port p).frame = some ⟨c.code, .whole buf⟩) (bs : List Byte) :
    wholeStep c take p (.bytes bs) s = s.setPhase p c.code (.whole (buf ++ bs)) := by
  simp [wholeStep, h, wholeBytes, State.phaseOf_some h]

theorem wholeStep_ends {buf : List Byte} (h : (s.port p).frame = some ⟨c.code, .whole buf⟩) (bs : List Byte) :
    wholeStep c take p (.ends bs) s = takeWhole c take p (buf ++ bs) (s.modPort p fun q => { q with frame := none }) := by
  simp [wholeStep, h, wholeEnds, State.phaseOf_some h]

theorem wholeStep_refused {r : Result} (h : (s.port p).frame = some ⟨c.code, .refused r⟩) (bs : List Byte) :
    wholeStep c take p (.bytes bs) s = s ∧ wholeStep c take p (.ends bs) s = s.closeFrame p r := by
  simp [wholeStep, h, wholeBytes, wholeEnds, State.phaseOf_some h]

/-- A whole command's frame keeps whatever its own rule keeps and no change of a port's frame or result
touches. -/
theorem wholeStep_keeps (I : State → Prop)
    (hport : ∀ (u : State) (q : PortId) (r : Result) (f : Option Frame), I u →
      I (u.modPort q fun x => { x with result := r, frame := f }))
    (htake : ∀ (u : State) (ps : List Byte), I u → I (take ps u).1) (st : FrameStep) (h : I s) :
    I (wholeStep c take p st s) := by
  have hphase : ∀ (u : State) (q : PortId) (d : Byte) (ph : Phase), I u → I (u.setPhase q d ph) := by
    intro u q d ph hu
    have := hport u q (u.port q).result (some ⟨d, ph⟩) hu
    simpa [State.setPhase, State.modPort, State.port] using this
  have hres : ∀ (u : State) (q : PortId) (r : Result), I u → I (u.setResult q r) := by
    intro u q r hu
    have := hport u q r (u.port q).frame hu
    simpa [State.setResult, State.modPort, State.port] using this
  have hclear : ∀ (u : State) (q : PortId), I u → I (u.modPort q fun x => { x with frame := none }) := by
    intro u q hu
    have := hport u q (u.port q).result none hu
    simpa [State.modPort, State.port] using this
  have hwhole : ∀ (u : State) (bs : List Byte), I u → I (takeWhole c take p bs u) := by
    intro u bs hu
    unfold takeWhole
    split
    · exact hres _ _ _ (htake _ _ hu)
    · exact hres _ _ _ hu
  have hbytes : ∀ (u : State) (bs : List Byte), I u → I (wholeBytes c p bs u) := by
    intro u bs hu
    unfold wholeBytes
    split <;> first | exact hu | exact hphase _ _ _ _ hu
  unfold wholeStep
  split
  · exact hphase _ _ _ _ h
  · exact hbytes _ _ (hphase _ _ _ _ h)
  · unfold wholeAtOnce
    split
    · exact hwhole _ _ h
    · exact hres _ _ _ h
  · exact h
  · exact hbytes _ _ h
  · unfold wholeEnds
    split <;> first | exact h | exact hwhole _ _ (hclear _ _ h) | exact hport _ _ _ _ h

end

/-! ## Reads -/

section
variable (c : Cmd) (answer : PortId → List Byte → State → Answer) {p : PortId} {s : State}

theorem readStep_opens (hf : (s.port p).frame = none) : readStep c answer p .opens s =
    s.setPhase p c.code (if (s.port p).role.mayIssue c then
      if cmdParams c = 0 then .answered (answer p [] s) else .reading [] else .refused .role) := by
  simp [readStep, hf, openRead]

theorem readBytes_refused {r : Result} (h : (s.port p).frame = some ⟨c.code, .refused r⟩) (bs : List Byte) :
    readBytes c answer p bs s = s := by
  unfold readBytes
  induction bs with
  | nil => rfl
  | cons b bs ih =>
    rw [List.foldl_cons]
    have : readByte c answer p s b = s := by simp [readByte, State.phaseOf_some h]
    rw [this]; exact ih

theorem readStep_refused {r : Result} (h : (s.port p).frame = some ⟨c.code, .refused r⟩) (bs : List Byte) :
    readStep c answer p (.bytes bs) s = s ∧ readStep c answer p (.ends bs) s = s.closeFrame p r := by
  simp [readStep, h, readBytes_refused c answer h, readEnd, State.phaseOf_some h]

/-- Parameter bytes gather, until the last of them takes the read. -/
theorem readBytes_reading {buf : List Byte} (h : (s.port p).frame = some ⟨c.code, .reading buf⟩) (bs : List Byte)
    (hl : buf.length + bs.length < cmdParams c) :
    readBytes c answer p bs s = s.setPhase p c.code (.reading (buf ++ bs)) := by
  unfold readBytes
  induction bs generalizing buf s with
  | nil =>
    rw [List.foldl_nil, List.append_nil, State.setPhase_self h]
  | cons b bs ih =>
    rw [List.foldl_cons]
    simp only [List.length_cons] at hl
    have hb : readByte c answer p s b = s.setPhase p c.code (.reading (buf ++ [b])) := by
      simp only [readByte, State.phaseOf_some h]
      rw [if_neg (by omega)]
    rw [hb, ih (buf := buf ++ [b]) (by simp) (by simp; omega)]
    simp

/-- The parameter bytes of a read take it. -/
theorem readBytes_taken {buf : List Byte} (h : (s.port p).frame = some ⟨c.code, .reading buf⟩) (bs : List Byte) (b : Byte)
    (hl : buf.length + bs.length + 1 = cmdParams c) :
    readBytes c answer p (bs ++ [b]) s =
      s.setPhase p c.code (.answered (answer p (buf ++ bs ++ [b]) (s.setPhase p c.code (.reading (buf ++ bs))))) := by
  have := readBytes_reading c answer h bs (by omega)
  unfold readBytes at this ⊢
  rw [List.foldl_append, this]
  simp only [List.foldl_cons, List.foldl_nil, readByte, State.phaseOf_setPhase]
  rw [if_pos (by simp; omega)]
  simp

/-- A read whose answer hands nothing over changes nothing but the count of bytes shifted out. -/
theorem readBytes_answered {a : Answer} (h : (s.port p).frame = some ⟨c.code, .answered a⟩)
    (hn : a.hand = .nothing) (bs : List Byte) :
    ∃ k, readBytes c answer p bs s = s.setPhase p c.code (.answered { a with shifted := k }) := by
  unfold readBytes
  induction bs generalizing a s with
  | nil =>
    refine ⟨a.shifted, ?_⟩
    exact (State.setPhase_self h).symm
  | cons b bs ih =>
    rw [List.foldl_cons]
    have hb : readByte c answer p s b = s.shiftByte p c.code a := by
      simp only [readByte, State.phaseOf_some h]
    have hnr : a.nextRelease = none := by simp [Answer.nextRelease, hn]
    rw [hb]
    unfold State.shiftByte
    simp only [hnr, reduceCtorEq, if_false]
    split
    · obtain ⟨k, hk⟩ := ih (a := { a with shifted := a.shifted + 1 })
        (s := s.setShifted p c.code a (a.shifted + 1)) (by simp [State.setShifted]) hn
      exact ⟨k, by rw [hk]; simp [State.setShifted]⟩
    · exact ih h hn

/-- Response bytes that complete no record are shifted out one by one. -/
theorem readBytes_shifts {a : Answer} (h : (s.port p).frame = some ⟨c.code, .answered a⟩) (bs : List Byte)
    (hl : a.shifted + bs.length ≤ a.response.length)
    (hn : ∀ j, a.shifted ≤ j → j < a.shifted + bs.length →
      ({ a with shifted := j } : Answer).nextRelease ≠ some (j + 1)) :
    readBytes c answer p bs s = s.setPhase p c.code (.answered { a with shifted := a.shifted + bs.length }) := by
  unfold readBytes
  induction bs generalizing a s with
  | nil => exact (State.setPhase_self h).symm
  | cons b bs ih =>
    simp only [List.length_cons] at hl hn
    have hb : readByte c answer p s b = s.setShifted p c.code a (a.shifted + 1) := by
      simp only [readByte, State.phaseOf_some h, State.shiftByte]
      rw [if_neg (hn a.shifted (le_refl _) (by omega)), if_pos (by omega)]
    rw [List.foldl_cons, hb]
    have hk := ih (a := { a with shifted := a.shifted + 1 }) (s := s.setShifted p c.code a (a.shifted + 1))
      (by simp [State.setShifted]) (by simp only; omega)
      (fun j h1 h2 => hn j (by simp only at h1; omega) (by simp only at h2; omega))
    rw [hk]
    simp [State.setShifted, Nat.add_assoc, Nat.add_comm 1]

/-- Bytes after the last record of a response change nothing but the count of bytes shifted out. -/
theorem readBytes_rest {a : Answer} (h : (s.port p).frame = some ⟨c.code, .answered a⟩) (bs : List Byte)
    (hn : ∀ j, a.shifted ≤ j → ({ a with shifted := j } : Answer).nextRelease ≠ some (j + 1)) :
    ∃ k, readBytes c answer p bs s = s.setPhase p c.code (.answered { a with shifted := k }) := by
  unfold readBytes
  induction bs generalizing a s with
  | nil => exact ⟨a.shifted, (State.setPhase_self h).symm⟩
  | cons b bs ih =>
    rw [List.foldl_cons]
    have hb : readByte c answer p s b = s.shiftByte p c.code a := by
      simp only [readByte, State.phaseOf_some h]
    have h0 : a.nextRelease ≠ some (a.shifted + 1) := hn a.shifted (le_refl _)
    rw [hb]
    unfold State.shiftByte
    simp only [h0, if_false]
    split
    · obtain ⟨k, hk⟩ := ih (a := { a with shifted := a.shifted + 1 })
        (s := s.setShifted p c.code a (a.shifted + 1)) (by simp [State.setShifted])
        (fun j hj => hn j (by simp only at hj; omega))
      exact ⟨k, by rw [hk]; simp [State.setShifted]⟩
    · exact ih h hn

/-- The byte that completes a record releases it. -/
theorem readByte_releases {a : Answer} (h : (s.port p).frame = some ⟨c.code, .answered a⟩) (b : Byte)
    (hn : a.nextRelease = some (a.shifted + 1)) :
    readByte c answer p s b = (s.setShifted p c.code a (a.shifted + 1)).releaseHand p a.hand := by
  simp only [readByte, State.phaseOf_some h, State.shiftByte]
  rw [if_pos hn]

/-- A response that hands over one record, with the byte K of it. -/
theorem readBytes_single {a : Answer} (h : (s.port p).frame = some ⟨c.code, .answered a⟩) (h0 : a.shifted = 0)
    (K : Nat) (hK : 1 ≤ K) (hl : K ≤ a.response.length)
    (hn : ∀ j, ({ a with shifted := j } : Answer).nextRelease = if j < K then some K else none)
    (hf : ∀ u : State, (u.port p).frame = some ⟨c.code, .answered { a with shifted := K }⟩ →
      ((u.releaseHand p a.hand).port p).frame = some ⟨c.code, .answered { a with shifted := K }⟩)
    (bs : List Byte) :
    (bs.length < K →
      readBytes c answer p bs s = s.setPhase p c.code (.answered { a with shifted := bs.length })) ∧
    (K ≤ bs.length → ∃ k, readBytes c answer p bs s =
      ((s.setShifted p c.code a K).releaseHand p a.hand).setPhase p c.code (.answered { a with shifted := k })) := by
  constructor
  · intro hb
    have hk := readBytes_shifts c answer h bs (by omega) (fun j _ hj => by
      rw [hn, if_pos (by omega)]; simp only [ne_eq, Option.some.injEq]; omega)
    rw [hk, h0, Nat.zero_add]
  · intro hb
    obtain ⟨xs, y, zs, rfl, hx⟩ : ∃ xs y zs, bs = xs ++ y :: zs ∧ xs.length = K - 1 := by
      refine ⟨bs.take (K - 1), bs[K - 1]'(by omega), bs.drop K, ?_, by simp; omega⟩
      have := List.getElem_cons_drop (as := bs) (i := K - 1) (by omega)
      rw [show K - 1 + 1 = K by omega] at this
      rw [this, List.take_append_drop]
    have hk := readBytes_shifts c answer h xs (by omega) (fun j _ hj => by
      rw [hn, if_pos (by omega)]; simp only [ne_eq, Option.some.injEq]; omega)
    unfold readBytes at hk ⊢
    rw [List.foldl_append, hk, List.foldl_cons]
    rw [readByte_releases c answer (a := { a with shifted := a.shifted + xs.length }) (by simp) y
      (by rw [hn, if_pos (by omega)]; simp only [Option.some.injEq]; omega)]
    have hs : (s.setPhase p c.code (.answered { a with shifted := a.shifted + xs.length })).setShifted p c.code
        { a with shifted := a.shifted + xs.length } (a.shifted + xs.length + 1) = s.setShifted p c.code a K := by
      simp only [State.setShifted, State.setPhase_setPhase]
      rw [show a.shifted + xs.length + 1 = K by omega]
    rw [hs]
    have hfr : (((s.setShifted p c.code a K).releaseHand p a.hand).port p).frame =
        some ⟨c.code, .answered { a with shifted := K }⟩ := by
      exact hf _ (by simp [State.setShifted])
    obtain ⟨k, hr⟩ := readBytes_rest c answer hfr zs (fun j hj => by
      simp only at hj ⊢; rw [hn, if_neg (by omega)]; simp)
    exact ⟨k, by unfold readBytes at hr; rw [hr]⟩

/-- A frame that ends leaves no trace of how far it had come. -/
@[simp] theorem State.closeFrame_setPhase (s : State) (p : PortId) (d : Byte) (ph : Phase) (r : Result) :
    (s.setPhase p d ph).closeFrame p r = s.closeFrame p r := by
  simp [State.setPhase, State.closeFrame]

/-- Updates of a port that agree on the port as it is are one. -/
theorem State.modPort_congr (s : State) (p : PortId) {f g : Port → Port} (h : f (s.port p) = g (s.port p)) :
    s.modPort p f = s.modPort p g := by
  unfold State.modPort
  unfold State.port at h
  rw [show f s.ports[p] = g s.ports[p] from h]

theorem State.closeFrame_none {s : State} {p : PortId} (h : (s.port p).frame = none) (r : Result) :
    s.closeFrame p r = s.setResult p r :=
  s.modPort_congr p (by rw [← h])

/-- A whole frame of a read with no parameters that hands over nothing. -/
theorem readStep_plain (h : s.ready p c) (hc : cmdParams c = 0) (hn : (answer p [] s).hand = .nothing)
    (bs : List Byte) : readStep c answer p (.ends bs) s = s.setResult p (answer p [] s).result := by
  simp only [readStep, h.1, openRead, h.2, hc, if_true]
  obtain ⟨k, hk⟩ := readBytes_answered c answer (p := p) (s := s.setPhase p c.code (.answered (answer p [] s)))
    (by simp) hn bs
  rw [hk]
  simp [readEnd, State.closeFrame_none h.1]

/-- A whole frame of a read with no parameters that hands over one record, with byte K of its response. -/
theorem readStep_single (h : s.ready p c) (hc : cmdParams c = 0) (h0 : (answer p [] s).shifted = 0)
    (K : Nat) (hK : 1 ≤ K) (hl : K ≤ (answer p [] s).response.length)
    (hn : ∀ j, ({ answer p [] s with shifted := j } : Answer).nextRelease = if j < K then some K else none)
    (hf : ∀ u : State, (u.port p).frame = some ⟨c.code, .answered { answer p [] s with shifted := K }⟩ →
      ((u.releaseHand p (answer p [] s).hand).port p).frame =
        some ⟨c.code, .answered { answer p [] s with shifted := K }⟩) (bs : List Byte) :
    (bs.length < K → readStep c answer p (.ends bs) s = s.setResult p (answer p [] s).result) ∧
    (K ≤ bs.length → readStep c answer p (.ends bs) s =
      ((s.setPhase p c.code (.answered { answer p [] s with shifted := K })).releaseHand p
        (answer p [] s).hand).closeFrame p (answer p [] s).result) := by
  have hs := readBytes_single c answer (p := p) (s := s.setPhase p c.code (.answered (answer p [] s)))
    (by simp) h0 K hK hl hn hf bs
  simp only [readStep, h.1, openRead, h.2, hc, if_true]
  constructor
  · intro hb
    rw [hs.1 hb]
    simp [readEnd, State.closeFrame_none h.1]
  · intro hb
    obtain ⟨k, hk⟩ := hs.2 hb
    rw [hk]
    simp [readEnd, State.setShifted]

/-- A read's frame keeps whatever no change of a port's frame or result touches and every release keeps. -/
theorem readStep_keeps (I : State → Prop)
    (hport : ∀ (u : State) (q : PortId) (r : Result) (f : Option Frame), I u →
      I (u.modPort q fun x => { x with result := r, frame := f }))
    (hrel : ∀ (u : State) (q : PortId) (h : Handover), I u → I (u.releaseHand q h)) (st : FrameStep) (h : I s) :
    I (readStep c answer p st s) := by
  have hphase : ∀ (u : State) (q : PortId) (d : Byte) (ph : Phase), I u → I (u.setPhase q d ph) := by
    intro u q d ph hu
    have := hport u q (u.port q).result (some ⟨d, ph⟩) hu
    simpa [State.setPhase, State.modPort, State.port] using this
  have hbyte : ∀ (u : State) (b : Byte), I u → I (readByte c answer p u b) := by
    intro u b hu
    unfold readByte
    split <;> try exact hu
    · exact hphase _ _ _ _ hu
    · unfold State.shiftByte
      dsimp only
      split
      · exact hrel _ _ _ (hphase _ _ _ _ hu)
      · split
        · exact hphase _ _ _ _ hu
        · exact hu
  have hbytes : ∀ (bs : List Byte) (u : State), I u → I (readBytes c answer p bs u) := by
    intro bs
    unfold readBytes
    induction bs with
    | nil => exact fun u hu => hu
    | cons b bs ih => exact fun u hu => ih _ (hbyte _ _ hu)
  have hend : ∀ u : State, I u → I (readEnd c p u) := by
    intro u hu
    unfold readEnd
    split <;> first | exact hu | exact hport _ _ _ _ hu
  unfold readStep
  split
  · exact hphase _ _ _ _ h
  · exact hbytes _ _ (hphase _ _ _ _ h)
  · exact hend _ (hbytes _ _ (hphase _ _ _ _ h))
  · exact h
  · exact hbytes _ _ h
  · exact hend _ (hbytes _ _ h)

/-- A release row keeps whatever a change of a port's frame does not touch and every release keeps. -/
theorem releaseStep_keeps (isMine : Handover → Bool) (I : State → Prop)
    (hphase : ∀ (u : State) (q : PortId) (d : Byte) (ph : Phase), I u → I (u.setPhase q d ph))
    (hrel : ∀ (u : State) (q : PortId) (h : Handover), I u → I (u.releaseHand q h)) (h : I s) :
    I (releaseStep isMine p s) := by
  unfold releaseStep
  split <;> try exact h
  split
  · split
    · exact hrel _ _ _ (hphase _ _ _ _ h)
    · exact h
  · exact h

end

/-! ## Incremental commands -/

section
variable (g : Grouped) {p : PortId} {s : State}

theorem groupedStep_opens (hf : (s.port p).frame = none) : groupedStep g p .opens s =
    s.setPhase p g.cmd.code (if (s.port p).role.mayIssue g.cmd then .incremental ⟨g.start, [], false, none⟩
      else .refused .role) := by
  simp [groupedStep, hf, openGrouped]

theorem groupedBytes_refused {r : Result} (h : (s.port p).frame = some ⟨g.cmd.code, .refused r⟩) (bs : List Byte) :
    groupedBytes g p bs s = s := by
  unfold groupedBytes
  induction bs with
  | nil => rfl
  | cons b bs ih =>
    rw [List.foldl_cons]
    have : groupedByte g p s b = s := by simp [groupedByte, State.phaseOf_some h]
    rw [this]; exact ih

theorem groupedStep_refused {r : Result} (h : (s.port p).frame = some ⟨g.cmd.code, .refused r⟩) (bs : List Byte) :
    groupedStep g p (.bytes bs) s = s ∧ groupedStep g p (.ends bs) s = s.closeFrame p r := by
  simp [groupedStep, h, groupedBytes_refused g h, groupedEnd, State.phaseOf_some h]

/-- A byte leaves a frame in progress in progress. -/
theorem groupedByte_frame (h : (s.port p).frame ≠ none) (b : Byte) : ((groupedByte g p s b).port p).frame ≠ none := by
  unfold groupedByte
  split <;> try exact h
  dsimp only
  split
  · simp
  · split <;> simp

theorem groupedBytes_frame (bs : List Byte) (h : (s.port p).frame ≠ none) :
    ((groupedBytes g p bs s).port p).frame ≠ none := by
  unfold groupedBytes
  induction bs generalizing s with
  | nil => exact h
  | cons b bs ih => exact ih (groupedByte_frame g h b)

theorem groupedBytes_append (as bs : List Byte) (s : State) :
    groupedBytes g p (as ++ bs) s = groupedBytes g p bs (groupedBytes g p as s) := List.foldl_append

/-- Bytes that come apart come to the same as bytes that come together. -/
theorem groupedStep_append (as bs : List Byte) :
    groupedStep g p (.bytes (as ++ bs)) s = groupedStep g p (.bytes bs) (groupedStep g p (.bytes as) s) ∧
    groupedStep g p (.ends (as ++ bs)) s = groupedStep g p (.ends bs) (groupedStep g p (.bytes as) s) := by
  rcases hf : (s.port p).frame with _ | f
  · have h1 : ((groupedBytes g p as (openGrouped g p s)).port p).frame ≠ none :=
      groupedBytes_frame g as (by simp [openGrouped])
    obtain ⟨f, h2⟩ := Option.ne_none_iff_exists'.mp h1
    constructor
    · simp only [groupedStep, hf, h2, groupedBytes_append]
    · simp only [groupedStep, hf, h2, groupedBytes_append]
  · have h1 : ((groupedBytes g p as s).port p).frame ≠ none := groupedBytes_frame g as (by simp [hf])
    obtain ⟨f, h2⟩ := Option.ne_none_iff_exists'.mp h1
    constructor
    · simp only [groupedStep, hf, h2, groupedBytes_append]
    · simp only [groupedStep, hf, h2, groupedBytes_append]

/-- The end of an incremental frame changes nothing but the result. -/
theorem groupedStep_end {i : Incremental} (h : (s.port p).frame = some ⟨g.cmd.code, .incremental i⟩) :
    groupedStep g p (.ends []) s = s.closeFrame p i.result := by
  simp [groupedStep, h, groupedBytes, groupedEnd, State.phaseOf_some h]

/-- An incremental frame keeps whatever no change of a port's frame or result touches and every group
keeps. -/
theorem groupedBytes_keeps (I : State → Prop)
    (hphase : ∀ (u : State) (q : PortId) (d : Byte) (ph : Phase), I u → I (u.setPhase q d ph))
    (happly : ∀ (u : State) (i : Incremental) (bs : List Byte), I u → I (g.apply i bs u).1) (bs : List Byte) (h : I s) :
    I (groupedBytes g p bs s) := by
  unfold groupedBytes
  induction bs generalizing s with
  | nil => exact h
  | cons b bs ih =>
    refine ih ?_
    unfold groupedByte
    split <;> try exact h
    dsimp only
    split
    · exact hphase _ _ _ _ h
    · split
      · exact hphase _ _ _ _ (happly _ _ _ h)
      · exact hphase _ _ _ _ h

theorem groupedStep_keeps (I : State → Prop)
    (hport : ∀ (u : State) (q : PortId) (r : Result) (f : Option Frame), I u →
      I (u.modPort q fun x => { x with result := r, frame := f }))
    (happly : ∀ (u : State) (i : Incremental) (bs : List Byte), I u → I (g.apply i bs u).1) (st : FrameStep) (h : I s) :
    I (groupedStep g p st s) := by
  have hphase : ∀ (u : State) (q : PortId) (d : Byte) (ph : Phase), I u → I (u.setPhase q d ph) := by
    intro u q d ph hu
    have := hport u q (u.port q).result (some ⟨d, ph⟩) hu
    simpa [State.setPhase, State.modPort, State.port] using this
  have hend : ∀ u : State, I u → I (groupedEnd g p u) := by
    intro u hu
    unfold groupedEnd
    split <;> first | exact hu | exact hport _ _ _ _ hu
  unfold groupedStep
  split
  · exact hphase _ _ _ _ h
  · exact groupedBytes_keeps g I hphase happly _ (hphase _ _ _ _ h)
  · exact hend _ (groupedBytes_keeps g I hphase happly _ (hphase _ _ _ _ h))
  · exact h
  · exact groupedBytes_keeps g I hphase happly _ h
  · exact hend _ (groupedBytes_keeps g I hphase happly _ h)

theorem groupStep_keeps (I : State → Prop)
    (hphase : ∀ (u : State) (q : PortId) (d : Byte) (ph : Phase), I u → I (u.setPhase q d ph))
    (happly : ∀ (u : State) (i : Incremental) (bs : List Byte), I u → I (g.apply i bs u).1) (bs : List Byte) (h : I s) :
    I (groupStep g p bs s) := by
  have hu : I (if (s.port p).frame = none then openGrouped g p s else s) := by
    split
    · exact hphase _ _ _ _ h
    · exact h
  unfold groupStep
  dsimp only
  generalize (if (s.port p).frame = none then openGrouped g p s else s) = u at hu ⊢
  split
  · exact groupedBytes_keeps g I hphase happly _ hu
  · exact h

end

end Sys2Proof.Machine
end

