-- ==== Sys2Proof/Laws/Timers.lean ====
section
/-! SUPPORT. What the passing of time can do: what every due event and every tick keeps is kept, and a passage in
which nothing is due and nothing runs out only counts down. -/

namespace Sys2Proof.Machine

set_option Elab.async false

/-! ## What the passing of time keeps -/

/-- Taking one of the events due keeps what each of them keeps. -/
theorem State.takeOne_keeps {P : State → Prop} (hd : ∀ s d, d ∈ s.dueAll → P s → P (s.takeDue d))
    (hc : ∀ s : State, P s → P { s with choices := s.choices + 1 }) {s : State} {d : Due} {ds : List Due}
    (h : s.dueAll = d :: ds) (hs : P s) : P (s.takeOne d ds) := by
  unfold State.takeOne
  split
  · exact hd _ _ (by rw [h]; exact List.mem_cons_self) hs
  · refine hd _ _ ?_ (hc _ hs)
    rw [show State.dueAll { s with choices := s.choices + 1 } = s.dueAll from rfl, h]
    cases hx : (d :: ds)[Config.duePick s.choices % (ds.length + 1)]? with
    | none => exact List.mem_cons_self
    | some x => exact List.mem_of_getElem? hx

theorem State.elapseWhile_keeps {P : State → Prop} (hd : ∀ s d, d ∈ s.dueAll → P s → P (s.takeDue d))
    (hc : ∀ s : State, P s → P { s with choices := s.choices + 1 }) (ht : ∀ s us, P s → P (s.countDown us))
    (fuel us : Nat) (s : State) (hs : P s) : P (s.elapseWhile fuel us) := by
  induction fuel generalizing us s with
  | zero => exact ht _ _ hs
  | succ n ih =>
    unfold State.elapseWhile
    split
    · exact hs
    · split
      · rename_i h; exact ih _ _ (State.takeOne_keeps hd hc h hs)
      · exact ih _ _ (ht _ _ hs)

/-- What every due event and every tick keeps, the passing of time keeps. -/
theorem State.elapse_keeps {P : State → Prop} (hd : ∀ s d, d ∈ s.dueAll → P s → P (s.takeDue d))
    (hc : ∀ s : State, P s → P { s with choices := s.choices + 1 }) (ht : ∀ s us, P s → P (s.countDown us))
    (s : State) (us : Nat) (hs : P s) : P (s.elapse us) := State.elapseWhile_keeps hd hc ht _ _ _ hs

theorem State.elapseTo_keeps {P : State → Prop} (hd : ∀ s d, d ∈ s.dueAll → P s → P (s.takeDue d))
    (hc : ∀ s : State, P s → P { s with choices := s.choices + 1 }) (ht : ∀ s us, P s → P (s.countDown us))
    (s : State) (us : Nat) (d : Due) (hs : P s) : P (s.elapseTo us d) := by
  unfold State.elapseTo
  have h := State.elapse_keeps hd hc ht s us hs
  dsimp only
  split
  · rename_i hm; exact hd _ _ (List.mem_append_right _ hm) h
  · exact h

theorem State.timerRunsOut_keeps {P : State → Prop} (hd : ∀ s d, d ∈ s.dueAll → P s → P (s.takeDue d))
    (hc : ∀ s : State, P s → P { s with choices := s.choices + 1 }) (ht : ∀ s us, P s → P (s.countDown us))
    (s : State) (timer : Option Nat) (d : Due) (hs : P s) : P (s.timerRunsOut timer d) := by
  unfold State.timerRunsOut
  split
  · exact hs
  · exact State.elapseTo_keeps hd hc ht _ _ _ hs

/-- What a step on an empty queue does keeps what every due event and every tick keeps. -/
theorem State.idleStep_keeps {P : State → Prop} (hd : ∀ s d, d ∈ s.dueAll → P s → P (s.takeDue d))
    (hc : ∀ s : State, P s → P { s with choices := s.choices + 1 }) (ht : ∀ s us, P s → P (s.countDown us))
    (s : State) (hs : P s) : P s.idleStep := by
  unfold State.idleStep
  split
  · rename_i h; exact State.takeOne_keeps hd hc h hs
  · exact State.elapse_keeps hd hc ht _ _ hs

/-! ## The blocks it can reach -/

theorem State.runoutArrival_frame (s : State) (n : StripNum) (k : Nat) :
    s.unchangedBut lineBlocks (s.runoutArrival n k) := by
  have count : ∀ t : State, t.unchangedBut [.bins] { t with bnc.runoutCount := min 65535 (t.bnc.runoutCount + 1) } :=
    fun t => ⟨fun b hb => by cases b <;> first | rfl | exact absurd (by decide) hb⟩
  unfold State.runoutArrival
  split
  · split
    · exact ((State.removeBelt_evolves ..).frame.comp (ds := lineBlocks) (count _)).comp
        (State.testRunout_evolves _).frame
    · exact .refl _ _
  · exact .refl _ _

/-- An event that is due reaches no more than these blocks. -/
theorem State.takeDue_frame (s : State) (d : Due) : s.unchangedBut lineBlocks (s.takeDue d) := by
  cases d with
  | deadline n => exact (State.deadlineArrival_evolves ..).frame.mono
  | trim n => exact (State.trimArrival_evolves ..).frame.mono
  | sort n k => exact (State.sortArrival_evolves ..).frame.mono
  | runout n k => exact State.runoutArrival_frame ..
  | fire c => exact (State.fireRequest_evolves ..).frame.mono
  | transit => exact (State.testTransit_evolves ..).frame.mono
  | gap =>
    show s.unchangedBut lineBlocks (if s.gapDue then s.openGap else s)
    split
    · exact (State.openGap_evolves ..).frame.mono
    · exact .refl _ _
  | cutOff => exact (State.testCutOff_evolves ..).frame.mono
  | window b n k => exact (State.windowEnds_evolves ..).frame.mono
  | delay l => exact (State.enterRun_evolves ..).frame.mono
  | idle l => exact (State.enterLane_evolves ..).frame.mono
  | releaseEnd l => exact (State.releaseEnds_evolves ..).frame.mono
  | outfeedEnd l => exact (State.outfeedEnds_evolves ..).frame.mono
  | pulseEnd c => exact (State.endPulse_evolves ..).frame.mono
  | recoveryEnd c => exact (State.toIdle_evolves ..).frame.mono

/-- The blocks that passing time can reach. -/
theorem State.elapse_frame (s : State) (us : Nat) : s.unchangedBut (.time :: lineBlocks) (s.elapse us) :=
  State.elapse_keeps (P := fun t => s.unchangedBut (.time :: lineBlocks) t)
    (fun _ _ _ h => h.trans ((State.takeDue_frame ..).mono))
    (fun t h => h.trans ⟨fun b hb => by cases b <;> first | rfl | exact absurd (by decide) hb⟩)
    (fun t us h => h.trans ((State.countDown_evolves t us).frame.mono)) s us (.refl _ _)

/-! ## What is due -/

theorem State.mem_dueLane (s : State) (l : Lane) (d : Due) : d ∈ s.dueLane l ↔
    (d = .delay l ∧ (s.lane l).delay = some 0) ∨ (d = .idle l ∧ (s.lane l).idle = some 0) ∨
    (d = .releaseEnd l ∧ (s.lane l).releaseTimer = some 0) ∨ (d = .outfeedEnd l ∧ (s.lane l).outfeedTimer = some 0) := by
  have one : ∀ (p : Prop) [Decidable p] (x : Due), d ∈ (if p then [x] else []) ↔ d = x ∧ p := by
    intro p _ x; split <;> simp_all
  simp only [State.dueLane, List.mem_append, one, or_assoc]

theorem State.mem_dueChannel (s : State) (c : ChannelId) (d : Due) : d ∈ s.dueChannel c ↔
    (d = .pulseEnd c ∧ (s.channel c).state = .pulsing 0) ∨ (d = .recoveryEnd c ∧ (s.channel c).state = .recovering 0) := by
  unfold State.dueChannel
  split
  · rename_i h; simp [h]
  · rename_i h; split <;> simp_all
  · rename_i h; split <;> simp_all

/-- What is due by time: the timers, pulses and recoveries that stand at 0. -/
theorem State.mem_dueNow (s : State) (d : Due) : d ∈ s.dueNow ↔
    (∃ l, d ∈ s.dueLane l) ∨ ∃ c, d ∈ s.dueChannel c := by
  unfold State.dueNow
  simp only [List.mem_append, List.mem_flatMap, List.mem_finRange, true_and]
  constructor
  · rintro ((h | h) | h)
    · exact .inl ⟨.a, h⟩
    · exact .inl ⟨.b, h⟩
    · exact .inr h
  · rintro (⟨l, h⟩ | h)
    · cases l
      · exact .inl (.inl h)
      · exact .inl (.inr h)
    · exact .inr h

theorem State.delay_due (s : State) (l : Lane) : Due.delay l ∈ s.dueNow ↔ (s.lane l).delay = some 0 := by
  simp only [State.mem_dueNow, State.mem_dueLane, State.mem_dueChannel]; aesop
theorem State.idle_due (s : State) (l : Lane) : Due.idle l ∈ s.dueNow ↔ (s.lane l).idle = some 0 := by
  simp only [State.mem_dueNow, State.mem_dueLane, State.mem_dueChannel]; aesop
theorem State.releaseEnd_due (s : State) (l : Lane) :
    Due.releaseEnd l ∈ s.dueNow ↔ (s.lane l).releaseTimer = some 0 := by
  simp only [State.mem_dueNow, State.mem_dueLane, State.mem_dueChannel]; aesop
theorem State.outfeedEnd_due (s : State) (l : Lane) :
    Due.outfeedEnd l ∈ s.dueNow ↔ (s.lane l).outfeedTimer = some 0 := by
  simp only [State.mem_dueNow, State.mem_dueLane, State.mem_dueChannel]; aesop
theorem State.pulseEnd_due (s : State) (c : ChannelId) :
    Due.pulseEnd c ∈ s.dueNow ↔ (s.channel c).state = .pulsing 0 := by
  simp only [State.mem_dueNow, State.mem_dueLane, State.mem_dueChannel]; aesop
theorem State.recoveryEnd_due (s : State) (c : ChannelId) :
    Due.recoveryEnd c ∈ s.dueNow ↔ (s.channel c).state = .recovering 0 := by
  simp only [State.mem_dueNow, State.mem_dueLane, State.mem_dueChannel]; aesop

/-- What is due by time is nothing when no timer, pulse or recovery stands at 0. -/
theorem State.dueLane_nil {s : State} {l : Lane}
    (h : ∀ x, (s.lane l).delay = some x ∨ (s.lane l).idle = some x ∨ (s.lane l).releaseTimer = some x ∨
      (s.lane l).outfeedTimer = some x → x ≠ 0) : s.dueLane l = [] := by
  refine List.eq_nil_iff_forall_not_mem.mpr fun d hd => ?_
  rw [State.mem_dueLane] at hd
  rcases hd with ⟨-, h'⟩ | ⟨-, h'⟩ | ⟨-, h'⟩ | ⟨-, h'⟩ <;> exact h 0 (by tauto) rfl

theorem State.dueChannel_nil {s : State} {c : ChannelId}
    (h : ∀ x, (s.channel c).state = .pulsing x ∨ (s.channel c).state = .recovering x → x ≠ 0) :
    s.dueChannel c = [] := by
  refine List.eq_nil_iff_forall_not_mem.mpr fun d hd => ?_
  rw [State.mem_dueChannel] at hd
  rcases hd with ⟨-, h'⟩ | ⟨-, h'⟩ <;> exact h 0 (by tauto) rfl

/-- The events due at the belt position do not depend on the lanes, the channels or the time. -/
theorem State.dueHere_congr {s t : State} (ht : t.track = s.track) (hg : t.gauge = s.gauge) (hm : t.merge = s.merge)
    (hb : t.bnc = s.bnc) (hs : t.fire.schedule = s.fire.schedule) : t.dueHere = s.dueHere := by
  obtain ⟨_, _, _, _, _, ⟨_, _⟩, _, _, _, _, _, _, _, _, _, _, _⟩ := s
  obtain ⟨_, _, _, _, _, ⟨_, _⟩, _, _, _, _, _, _, _, _, _, _, _⟩ := t
  dsimp only at *
  subst ht hg hm hb hs
  rfl

/-- The microseconds to the run-outs, bounded timer by timer. -/
theorem State.rests_ge {s : State} {us : Nat}
    (hl : ∀ k x, (s.lane k).delay = some x ∨ (s.lane k).idle = some x ∨ (s.lane k).releaseTimer = some x ∨
      (s.lane k).outfeedTimer = some x → us ≤ s.untilTick x)
    (hc : ∀ c left, (s.channel c).state = .pulsing left ∨ (s.channel c).state = .recovering left → us ≤ left) :
    ∀ x ∈ s.rests, us ≤ x := by
  intro x hx
  unfold State.rests at hx
  simp only [List.mem_append, List.mem_map, List.mem_flatMap, List.mem_finRange, true_and, LaneCtl.rests,
    Option.mem_toList] at hx
  rcases hx with ⟨a, h, rfl⟩ | ⟨c, h⟩
  · rcases h with h | h
    · exact hl .a a (by tauto)
    · exact hl .b a (by tauto)
  · refine hc c x ?_
    cases hst : (s.channel c).state <;> simp [hst, ChannelState.rest] at h <;> subst h <;> simp

/-! ## A passage in which nothing happens -/

@[simp] theorem State.elapse_zero (s : State) : s.elapse 0 = s := by
  simp [State.elapse, State.elapseWhile]

theorem foldl_min_eq {xs : List Nat} {us : Nat} (h : ∀ x ∈ xs, us ≤ x) : xs.foldl min us = us := by
  induction xs with
  | nil => rfl
  | cons x xs ih =>
    rw [List.foldl_cons, Nat.min_eq_left (h x (by simp))]
    exact ih fun y hy => h y (by simp [hy])

/-- With nothing due, time passes to the next run-out or to the end. -/
theorem State.elapseWhile_counts (fuel : Nat) {s : State} {us : Nat} (hd : s.dueAll = []) (hus : us ≠ 0) :
    s.elapseWhile (fuel + 1) us = (s.countDown (s.stretch us)).elapseWhile fuel (us - s.stretch us) := by
  rw [State.elapseWhile, if_neg hus]
  split
  · rename_i h; rw [hd] at h; cases h
  · rfl

/-- With one event due, it happens. -/
theorem State.elapseWhile_takes (fuel : Nat) {s : State} {us : Nat} {d : Due} (hd : s.dueAll = [d]) (hus : us ≠ 0) :
    s.elapseWhile (fuel + 1) us = (s.takeDue d).elapseWhile fuel us := by
  rw [State.elapseWhile, if_neg hus]
  split
  · rename_i h
    rw [hd] at h
    obtain ⟨rfl, rfl⟩ := List.cons.inj h
    rfl
  · rename_i h; rw [hd] at h; cases h

theorem State.elapseWhile_zero (fuel : Nat) (s : State) : s.elapseWhile (fuel + 1) 0 = s := by
  rw [State.elapseWhile, if_pos rfl]

/-- With nothing due and no run-out before the end, time only counts. -/
theorem State.elapseWhile_quiet (fuel : Nat) {s : State} {us : Nat} (hd : s.dueAll = [])
    (hr : ∀ x ∈ s.rests, us ≤ x) (hus : us ≠ 0) : s.elapseWhile (fuel + 2) us = s.countDown us := by
  rw [State.elapseWhile_counts _ hd hus, show s.stretch us = us from foldl_min_eq hr, Nat.sub_self,
    State.elapseWhile_zero]

theorem State.elapse_quiet {s : State} {us : Nat} (hd : s.dueAll = []) (hr : ∀ x ∈ s.rests, us ≤ x) (hus : us ≠ 0) :
    s.elapse us = s.countDown us := by
  unfold State.elapse
  obtain ⟨n, hn⟩ : ∃ n, 512 * (us + 1) = n + 2 := ⟨512 * us + 510, by omega⟩
  rw [hn, State.elapseWhile_quiet _ hd hr hus]

/-! ## A passage with one run-out on the way (R96) -/

theorem foldl_min_mem {xs : List Nat} {us n : Nat} (hn : n ∈ xs) (hus : n ≤ us) (h : ∀ x ∈ xs, n ≤ x) :
    xs.foldl min us = n := by
  induction xs generalizing us with
  | nil => cases hn
  | cons x xs ih =>
    rw [List.foldl_cons]
    by_cases hx : n ∈ xs
    · exact ih hx (le_min hus (h x (by simp))) fun y hy => h y (by simp [hy])
    · have : n = x := by
        rcases List.mem_cons.mp hn with h | h
        · exact h
        · exact absurd h hx
      subst this
      rw [Nat.min_eq_right hus]
      exact foldl_min_eq fun y hy => h y (by simp [hy])

theorem flatMap_single {α : Type} (c : ChannelId) (x : α) (g : ChannelId → List α) (hc : g c = [x])
    (hg : ∀ e, e ≠ c → g e = []) : (List.finRange 14).flatMap g = [x] := by
  have : g = fun e => if e = c then [x] else [] := by
    funext e; split
    · subst e; exact hc
    · rename_i h; exact hg e h
  rw [this]
  fin_cases c <;> rfl

/-- R96: time passes over the run-out d of one channel c, `left` microseconds on: the run-out happens at its own
tick, and the rest of the time passes after it. -/
theorem State.elapse_runOut {s : State} {c : ChannelId} {left us : Nat} {d : Due} {f : Channel → Channel}
    (hdue : s.dueAll = [])
    (hl : ∀ k x, (s.lane k).delay = some x ∨ (s.lane k).idle = some x ∨ (s.lane k).releaseTimer = some x ∨
      (s.lane k).outfeedTimer = some x → us ≤ 1000 * x - s.time.subMs)
    (hc : ∀ e x, e ≠ c → (s.channel e).state = .pulsing x ∨ (s.channel e).state = .recovering x → us ≤ x)
    (hleft : (s.channel c).state.rest = [left]) (hlt : left < us)
    (hd : (s.countDown left).dueChannel c = [d]) (ht : ∀ t : State, t.takeDue d = t.modChannel c f)
    (hf : ∀ x, (f ((s.channel c).countDown left)).state = .pulsing x ∨
      (f ((s.channel c).countDown left)).state = .recovering x → us - left ≤ x) :
    s.elapse us = ((s.countDown left).modChannel c f).countDown (us - left) := by
  have hus : us ≠ 0 := by omega
  have hl' : ∀ k x, (s.lane k).delay = some x ∨ (s.lane k).idle = some x ∨ (s.lane k).releaseTimer = some x ∨
      (s.lane k).outfeedTimer = some x → us ≤ s.untilTick x := fun k x h => by
    have := hl k x h
    unfold State.untilTick
    split <;> first | (subst x; omega) | omega
  have hcc : ∀ x, (s.channel c).state = .pulsing x ∨ (s.channel c).state = .recovering x → x = left := fun x h => by
    rcases h with h | h <;> (rw [h] at hleft; exact List.head_eq_of_cons_eq hleft)
  have hmin : ∀ x ∈ s.rests, left ≤ x := State.rests_ge (fun k x h => by have := hl' k x h; omega) fun e x h => by
    by_cases he : e = c
    · subst e; exact (hcc x h).ge
    · have := hc e x he h; omega
  have hmem : left ∈ s.rests := by
    unfold State.rests
    refine List.mem_append_right _ (List.mem_flatMap.mpr ⟨c, List.mem_finRange c, ?_⟩)
    rw [hleft]; exact List.mem_singleton_self _
  have hstr : s.stretch us = left := foldl_min_mem hmem hlt.le hmin
  have hq : ∀ k x, ((s.countDown left).lane k).delay = some x ∨ ((s.countDown left).lane k).idle = some x ∨
      ((s.countDown left).lane k).releaseTimer = some x ∨ ((s.countDown left).lane k).outfeedTimer = some x →
      us - left ≤ 1000 * x - (s.countDown left).time.subMs := by
    intro k x h
    have key : ∀ y, us ≤ 1000 * y - s.time.subMs → y - (s.time.subMs + left) / 1000 = x →
        us - left ≤ 1000 * x - (s.time.subMs + left) % 1000 := by intro y h1 h2; omega
    have := hl k
    cases k <;>
      simp only [State.countDown, State.lane, PerLane.get, LaneCtl.countDown, Option.map_eq_some_iff] at h ⊢ <;>
      rcases h with ⟨y, h, e⟩ | ⟨y, h, e⟩ | ⟨y, h, e⟩ | ⟨y, h, e⟩ <;>
      exact key y (this y (by simp only [State.lane, PerLane.get]; tauto)) e
  have hch : ∀ e x, e ≠ c → ((s.countDown left).channel e).state = .pulsing x ∨
      ((s.countDown left).channel e).state = .recovering x → us - left ≤ x := by
    intro e x he h
    rw [State.channel_countDown] at h
    have := hc e
    cases hst : (s.channel e).state with
    | idle => simp [Channel.countDown, hst, ChannelState.countDown] at h
    | pulsing y =>
      simp [Channel.countDown, hst, ChannelState.countDown] at h
      have := this y he (.inl hst); omega
    | recovering y =>
      simp [Channel.countDown, hst, ChannelState.countDown] at h
      have := this y he (.inr hst); omega
  have hhere : (s.countDown left).dueHere = [] := by
    rw [State.dueHere_congr (s := s) (t := s.countDown left) rfl rfl rfl rfl rfl]
    exact (List.append_eq_nil_iff.mp hdue).1
  have hlane : ∀ k, (s.countDown left).dueLane k = [] := fun k =>
    State.dueLane_nil fun x h => by have := hq k x h; omega
  have hone : (s.countDown left).dueAll = [d] := by
    unfold State.dueAll State.dueNow
    rw [hhere, hlane, hlane]
    exact flatMap_single c d _ hd fun e he => State.dueChannel_nil fun x h => by have := hch e x he h; omega
  have hcf : ∀ e x, (((s.countDown left).modChannel c f).channel e).state = .pulsing x ∨
      (((s.countDown left).modChannel c f).channel e).state = .recovering x → us - left ≤ x := by
    intro e x h
    rw [State.channel_modChannel] at h
    split at h
    · subst e; rw [State.channel_countDown] at h; exact hf x h
    · rename_i he; exact hch e x he h
  have hnone : ((s.countDown left).modChannel c f).dueAll = [] := by
    unfold State.dueAll State.dueNow
    rw [State.dueHere_congr (s := s.countDown left) (t := (s.countDown left).modChannel c f) rfl rfl rfl rfl rfl, hhere]
    have : ∀ k, ((s.countDown left).modChannel c f).dueLane k = (s.countDown left).dueLane k := fun _ => rfl
    rw [this, this, hlane, hlane]
    simp only [List.nil_append, List.flatMap_eq_nil_iff]
    exact fun e _ => State.dueChannel_nil fun x h => by have := hcf e x h; omega
  unfold State.elapse
  obtain ⟨n, hn⟩ : ∃ n, 512 * (us + 1) = n + 1 + 1 + 2 := ⟨512 * us + 508, by omega⟩
  rw [hn, show n + 1 + 1 + 2 = (n + 2) + 1 + 1 from rfl, State.elapseWhile_counts _ hdue hus, hstr,
    State.elapseWhile_takes _ hone (by omega), ht,
    State.elapseWhile_quiet _ hnone (State.rests_ge (fun k x h => ?_) hcf) (by omega)]
  have := hq k x h
  unfold State.untilTick
  split
  · subst x; omega
  · exact this

end Sys2Proof.Machine
end

