-- ==== Sys2Proof/Tests/Slice0.lean ====
section
/-! SUPPORT. Tests: the checks on operands, a few commands, and for each statement states and operands that meet
its hypotheses, clause by clause. -/

namespace Sys2Proof.Machine

set_option Elab.async false
set_option maxRecDepth 20000

/-! ## WellFormed refuses ill-formed commands -/

theorem test_unknownCommand_with_a_listed_code_is_refused :
    (Instr.unknownCommand 0 0x01 .opens).wellFormed = false ∧ (Instr.unknownCommand 0 0x55 .opens).wellFormed = false ∧
    (Instr.unknownCommand 0 0x00 .opens).wellFormed = true ∧ (Instr.unknownCommand 0 0x0F .opens).wellFormed = true ∧
    (Instr.unknownCommand 0 0x56 .opens).wellFormed = true := by decide

theorem test_deadlineArrival_of_no_strip_is_refused :
    (Instr.deadlineArrival 0).wellFormed = false ∧ (Instr.deadlineArrival 1).wellFormed = true := by decide

theorem test_trimArrival_of_no_strip_is_refused :
    (Instr.trimArrival 0).wellFormed = false ∧ (Instr.trimArrival 65535).wellFormed = true := by decide

theorem test_sortArrival_of_no_strip_or_a_fifth_piece_is_refused :
    (Instr.sortArrival 0 0).wellFormed = false ∧ (Instr.sortArrival 1 4).wellFormed = false ∧
    (Instr.sortArrival 1 3).wellFormed = true := by decide

theorem test_runoutArrival_of_no_strip_or_a_fifth_piece_is_refused :
    (Instr.runoutArrival 0 0).wellFormed = false ∧ (Instr.runoutArrival 1 4).wellFormed = false ∧
    (Instr.runoutArrival 1 3).wellFormed = true := by decide

theorem test_windowEnd_of_no_strip_or_a_fifth_piece_is_refused :
    (Instr.windowEnd 0 0 0).wellFormed = false ∧ (Instr.windowEnd 0 1 4).wellFormed = false ∧
    (Instr.windowEnd 0 1 3).wellFormed = true := by decide

/-! ## Small states -/

/-- The state after a command, when it answers a next state. -/
def after (c : Instr) (s : State) : Option State :=
  match exec c s with
  | .next t => some t
  | .fault _ => none
  | .refused _ => none

/-- Port 1 holds a role. -/
def at1 (r : Role) : State := State.reset.modPort 1 fun q => { q with role := r }

/-- Lane A in a state. -/
def laneIn (st : LaneState) : State := State.reset.modLane .a fun c => { c with state := st }

/-- Strip 7 in a state. -/
def strip7 (st : StripState) : StripRec where
  number := 7
  lane := .a
  profile := 2
  widthNominal := 9000
  thicknessNominal := 1400
  edition := .e0
  state := st
  grantPos := some 0
  lead := some 200
  length := some 5000
  outOfRange := false
  width := none
  thickness := none
  moisture := none
  plan := none
  traced := false

/-- Strip 7 with a plan of two segments. -/
def planned7 : StripRec :=
  { strip7 .planned with plan := some ⟨[⟨0, 2000, 1⟩, ⟨2500, 5000, 3⟩], .scanner, none⟩ }

/-- Piece 0 of strip 7 in a state, with a reason or none. -/
def piece7 (st : PieceState) (why : Option Reason) : PieceRec where
  number := 7
  index := 0
  lane := .a
  profile := 2
  width := 9000
  edition := .e0
  lead := 200
  segLength := 3000
  finalLength := 3000
  faceClass := 1
  grade := .commercial 0
  source := .scanner
  reason := why
  tongueDone := false
  grooveDone := false
  state := st
  traced := false

/-- A belt with these records, at a position. -/
def beltAt (position : Nat) (belt : List BeltRec) : State :=
  { State.reset with track.belt := belt, track.position := BitVec.ofNat 24 position }

/-- Strip 7 at the exit of lane A, in RUN. -/
def queued (st : StripState) : State :=
  { laneIn .run with track.queues := ⟨[strip7 st], []⟩ }

/-- Order 5 in a state, with its bins. -/
def order5 (st : OrderState) (bins : List BinId) : Order where
  id := 5
  gradeSet := 1
  profile := 2
  bandMin := 1000
  bandMax := 5000
  target := 10
  longThreshold := 2000
  longShare := 50
  ordered := 3
  priority := 4
  maxBins := 2
  state := st
  labelled := 0
  opened := bins.length
  bins := bins

/-- An order bin of order 5 in a state, with its expected list and dropped count. -/
def bin5 (st : BinState) (dropped : Nat) (expected : List Expected) : OrderBin :=
  { OrderBin.powerOn with state := st, order := some 5, dropped := dropped, expected := expected }

/-- Order 5 in a state, with bin 0. -/
def bound5 (o : OrderState) (b : BinState) (dropped : Nat) (expected : List Expected) : State :=
  { State.reset with book := [order5 o [0]] }.modBin 0 fun _ => bin5 b dropped expected

/-- A label of order 5. -/
def label5 : Label := ⟨1, 5, 0, false, 2, 10, Bundle.zero⟩

/-- A state in which much stands at once: records in three lists, a running lane, a bound bin, a stroke. -/
def busy : State :=
  { bound5 .active .opened 0 [⟨7, 0, 100, false⟩] with
    track := { Track.powerOn with
      queues := ⟨[{ strip7 .inMoulder with number := 9 }], []⟩
      transit := [{ strip7 .transit with number := 8 }]
      belt := [.piece (piece7 (.assigned 0) none)] }
    lanes.a.state := .run
    fire.schedule := [⟨50, 3, 7, 0, .gate⟩] }

/-! ## A few commands from reset -/

theorem test_hold_sets_operator :
    (after (.hold 0 (.ends [])) State.reset).map (fun t => (t.holds.operator, t.lineHold, (t.port 0).queue.length)) =
      some (true, true, 1) := by decide

theorem test_hold_from_a_port_without_a_role_is_refused :
    (after (.hold 1 (.ends [])) State.reset).map (fun t => (t.holds.operator, (t.port 1).result)) =
      some (false, .role) := by decide

theorem test_roleSet_gives_the_role :
    (after (.roleSet 0 (.ends [1, 3])) State.reset).map (fun t => ((t.port 1).role, (t.port 0).result)) =
      some (.machining, .ok) := by decide

theorem test_laneStart_starts_the_delay :
    (after (.laneStart 0 (.ends [0])) State.reset).map (fun t => ((t.lane .a).state, (t.lane .a).delay)) =
      some (.starting, some 8000) := by decide

theorem test_laneStart_of_no_lane :
    (after (.laneStart 0 (.ends [2])) State.reset).map (fun t => (t.port 0).result) = some .badField := by decide

theorem test_a_waiting_blank_is_released :
    (after (.blankReadyActive .a) (laneIn .run)).map (fun t => ((t.queue .a).map StripRec.number,
      (t.lane .a).releaseTimer, t.track.lastNumber)) = some ([1], some 20, 1) := by decide

theorem test_a_strip_at_the_exit_is_granted :
    (after (.exitEyeLeadEdge .a) (queued .inMoulder)).map (fun t => (t.queue .a, t.track.transit.map StripRec.state,
      t.merge.gapOpen, t.merge.lastWinner)) = some ([], [.transit], false, some .a) := by decide

theorem test_a_strip_is_split_at_trim :
    (after (.trimArrival 7) (beltAt 12200 [.strip planned7])).map (fun t => (t.pieces.map PieceRec.index,
      t.fire.schedule.map FireEntry.purpose)) =
      some ([0, 1], [.cut, .cut, .tongue, .groove, .tongue, .groove]) := by decide

theorem test_orderPut_binds_a_bin :
    (after (.orderPut 0 (.ends (be16 5 ++ [1, 2] ++ be16 100 ++ be16 500 ++ be16 10 ++ be16 0 ++ [50] ++ be16 3 ++
      [1, 1]))) State.reset).map (fun t => (t.book.map Order.state, (t.bin 0).state)) =
      some ([.active], .opened) := by decide

theorem test_a_forward_count_moves_the_belt :
    (after .encoderForwardCount State.reset).map (fun t => t.track.position) = some 1 := by decide

theorem test_a_forward_count_pays_off_backlash :
    (after .encoderForwardCount { State.reset with track.backlash := 1 }).map (fun t =>
      (t.track.position, t.track.backlash)) = some (0, 0) := by decide

theorem test_decodeTableWord_spells_no_command : decodeTableWord 8 1 = none := by decide

/-! ## The hypotheses of the statements can be met -/

theorem witness_EmptyQueueTakesWhatIsDue :
    (State.reset.pending = [] ∧ State.reset.dueAll = []) ∧
    (let s := State.reset.modLane .a fun c => { c with delay := some 0 };
      s.pending = [] ∧ s.dueAll = [.delay .a]) ∧
    (let s := State.reset.modLane .a fun c => { c with delay := some 0, releaseTimer := some 0 };
      s.pending = [] ∧ 1 < s.dueAll.length) := by decide

theorem witness_PowerOnIsLawful :
    ∃ t, exec (.powerOn ⟨true, true, false, true, true⟩) State.reset = .next t := ⟨_, rfl⟩

theorem witness_FramesAreJudgedAtTheirCommandByte :
    ((State.reset.port 0).frame = none ∧ listedCode 0x00 = false ∧ listedCode 0x0F = false ∧
      listedCode 0x25 = false ∧ listedCode 0x56 = false ∧ listedCode 0xFF = false) ∧
    ((State.reset.port 1).frame = none ∧ (State.reset.port 1).role.mayIssue .hold = false ∧
      (State.reset.port 0).role.mayIssue .verdict = false) ∧
    (∀ c ∈ [Cmd.hold, .limitsSet, .status, .readEvents],
      (State.reset.port 0).frame = none ∧ (State.reset.port 0).role.mayIssue c = true) ∧
    ((State.reset.setPhase 0 0x06 (.refused .role)).port 0).frame = some ⟨0x06, .refused .role⟩ ∧
    Cmd.hold.code = 0x06 ∧
    ((State.reset.setPhase 0 0 (.refused .unknownCommand)).port 0).frame = some ⟨0, .refused .unknownCommand⟩ ∧
    (Cmd.hold.row.kind = .whole 0 ∧ Cmd.mapWrite.row.kind = .incremental ∧ Cmd.status.row.kind = .read 0) ∧
    (∀ x ∈ [(Cmd.hold, Phase.whole []), (.mapWrite, .incremental ⟨.awaited, [], false, none⟩), (.stripRead, .reading []),
        (.status, .answered ⟨.ok, [], 0, .nothing⟩)],
      ((State.reset.setPhase 0 x.1.code x.2).port 0).frame = some ⟨x.1.code, x.2⟩) := by decide

theorem witness_WholeCommandsTakeTheirExactLength :
    Cmd.laneStart.row.kind = .whole 1 ∧
    ((State.reset.port 0).frame = none ∧ (State.reset.port 0).role.mayIssue .laneStart = true) ∧
    ([] : List Byte).length ≠ 1 ∧ ([0, 0] : List Byte).length ≠ 1 ∧
    (let s := State.reset.setPhase 0 0x10 (.whole []);
      (s.port 0).frame = some ⟨Cmd.laneStart.code, .whole []⟩ ∧ (s.port 0).role.mayIssue .laneStart = true) := by
  decide

theorem witness_FramesBreakAndEnd :
    (State.reset.port 0).frame = none ∧
    (∀ ph ∈ [Phase.refused .role, .whole [], .incremental ⟨.awaited, [], false, none⟩, .reading [],
        .answered ⟨.ok, [1], 0, .nothing⟩],
      ((State.reset.setPhase 0 0x16 ph).port 0).frame = some ⟨0x16, ph⟩) ∧
    Cmd.laneConfig.row.kind = .incremental ∧ Cmd.laneConfig.code = 0x16 ∧
    (after (frameInstr .laneConfig 0 (.bytes [0])) State.reset).isSome = true := by decide

/-- Port 0 has a full queue. -/
def fullQueue : State :=
  State.reset.modPort 0 fun q => { q with queue := List.replicate 32 ⟨.lineCleared, 0, 0, 0, 0, 0, 0⟩ }

theorem witness_EventsAreRoutedByRole :
    (fullQueue.portsLawful ∧ 32 ≤ (fullQueue.port 0).queue.length) ∧
    (State.reset.portsLawful ∧ (State.reset.port 0).queue.length < 32) ∧
    ((at1 .scanner).portsLawful ∧ ((at1 .scanner).port 1).role = EventKind.destination .stripMeasured) := by
  unfold State.portsLawful
  decide

theorem witness_RoleSet :
    (State.reset.ready 0 .roleSet ∧ (at1 .scanner).ready 0 .roleSet) ∧
    (4 ≤ (4 : Byte).toNat ∧ (3 : Byte).toNat = (3 : PortId).val ∧ (3 : PortId) ≠ 0) ∧
    (5 ≤ (5 : Byte).toNat ∧ (4 : Byte).toNat = Role.dispatch.code ∧ Role.dispatch ≠ .supervisor) ∧
    (∃ q, q ≠ 2 ∧ ((at1 .scanner).port q).role = .scanner) ∧
    (∀ q, q ≠ 1 → ((at1 .scanner).port q).role ≠ .scanner) ∧ Role.none.code = 0 := by
  unfold State.ready
  decide

theorem witness_StepKeepsThePortsLawful :
    fullQueue.portsLawful ∧ ∃ t, step { fullQueue with pending := [.guardOpen] } = .next t := by
  refine ⟨?_, _, rfl⟩
  unfold State.portsLawful
  decide

theorem witness_StatusReportsAndReleasesTheFlag :
    State.reset.ready 0 .status ∧ 3 ≤ ([0, 0, 0] : List Byte).length ∧
    (let s := State.reset.setPhase 0 1 (.answered ⟨.ok, [1, 0, 1], 2, .flag false⟩);
      (s.port 0).frame = some ⟨1, .answered ⟨.ok, [1, 0, 1], 2, .flag false⟩⟩ ∧ 2 < 3 ∧
        3 ≤ ([1, 0, 1] : List Byte).length) := by
  unfold State.ready
  decide

theorem witness_EventsAreReadAndReleased :
    State.reset.ready 0 .readEvents ∧ (32 < (33 : Byte).toNat) ∧
    (1 ≤ (1 : Byte).toNat ∧ (32 : Byte).toNat ≤ 32) ∧
    (let a : Answer := ⟨.ok, List.replicate 25 0, 24, .events false⟩;
      let s := State.reset.setPhase 0 2 (.answered a);
      (s.port 0).frame = some ⟨2, .answered a⟩ ∧ 12 * ((a.shifted - 1) / 12) + 13 ≤ a.response.length) := by
  unfold State.ready
  decide

/-- A label stands in slot 0, both slots held, and bin 0 waits for one. -/
def labelled : State :=
  let s := bound5 .active .labelWait 10 [];
  { s with bnc.slots := #v[some label5, some { label5 with serial := 2 }], bnc.waitList := [0], bnc.serial := 3 }

/-- The frame of a TAKE_LABEL in progress, one byte before its end. -/
def taking (serial : BitVec 32) : Answer := ⟨.ok, label5.bytes, 58, .label 0 serial⟩

theorem witness_LabelsAreTakenReleasedAndComposed :
    (State.reset.ready 0 .takeLabel ∧ State.reset.bnc.slots[State.reset.bnc.take] = none) ∧
    (labelled.ready 0 .takeLabel ∧ labelled.bnc.slots[labelled.bnc.take] = some label5) ∧
    (((labelled.setPhase 0 0x36 (.answered (taking 1))).port 0).frame = some ⟨0x36, .answered (taking 1)⟩ ∧
      (taking 1).shifted < (taking 1).response.length) ∧
    (labelled.bnc.slots[(0 : Fin 2)] = some label5 ∧ label5.serial = 1 ∧ label5.serial ≠ 9) ∧
    (labelled.bnc.waitList = [0] ∧ labelled.bnc.serial ≠ 4294967295 ∧ labelled.bnc.compose = 0 ∧
      labelled.bnc.slots[(1 : Fin 2)] ≠ none ∧ (labelled.bin 0).order = some 5 ∧
      labelled.order 5 = some (order5 .active [0])) ∧
    ({ labelled with bnc.waitList := [] }.bnc.slots[(0 : Fin 2)] = some label5) ∧
    ({ labelled with bnc.serial := 4294967295 }.bnc.slots[(0 : Fin 2)] = some label5) := by
  unfold State.ready
  decide

/-- A trace is held with one entry, and a fault is captured. -/
def audited : State :=
  { State.reset with audit := ⟨1, 0, .held, 7, .a, false, [⟨.released, 0, 0, 0, 0⟩],
      some ⟨.misdrop, 7, 0, 1, 0, 0⟩⟩ }

theorem witness_TracesAndFaultsAreRead :
    (State.reset.ready 0 .traceRead ∧ State.reset.audit.trace ≠ .held) ∧
    (audited.ready 0 .traceRead ∧ audited.audit.trace = .held) ∧
    (let a : Answer := ⟨.ok, audited.audit.traceBytes, 12, .trace⟩;
      ((audited.setPhase 0 0x41 (.answered a)).port 0).frame = some ⟨0x41, .answered a⟩ ∧
        a.shifted < a.response.length) ∧
    (State.reset.ready 0 .faultRead ∧ State.reset.audit.fault = none) ∧
    (audited.ready 0 .faultRead ∧ audited.audit.fault = some ⟨.misdrop, 7, 0, 1, 0, 0⟩) ∧
    (let a : Answer := ⟨.ok, FaultRec.bytes ⟨.misdrop, 7, 0, 1, 0, 0⟩, 10, .fault⟩;
      ((audited.setPhase 0 0x42 (.answered a)).port 0).frame = some ⟨0x42, .answered a⟩ ∧
        a.shifted < a.response.length) := by
  unfold State.ready
  decide

theorem witness_StateReadsShowAndChangeNothing :
    (∀ c ∈ [Cmd.stripRead, .laneRead, .mapRead, .channelRead, .orderRead, .binRead],
      (busy.port 0).frame = none ∧ (busy.port 0).role.mayIssue c = true) ∧
    ([] : List Byte).length < cmdParams .stripRead ∧
    (num16 0 0 = 0 ∧ (num16 0 1 ≠ 0 ∧ busy.carried (num16 0 1) = false)) ∧
    (num16 0 8 ≠ 0 ∧ busy.strip (num16 0 8) = some { strip7 .transit with number := 8 }) ∧
    (num16 0 7 ≠ 0 ∧ busy.strip (num16 0 7) = none ∧
      [0, 1, 2, 3].filterMap (fun k => busy.piece (num16 0 7) k) = [piece7 (.assigned 0) none]) ∧
    (2 ≤ (2 : Byte).toNat ∧ (1 : Byte).toNat = laneCode .b) ∧
    (1 < (2 : Byte).toNat ∧ 7 < (8 : Byte).toNat ∧ 15 < (16 : Byte).toNat ∧ 128 < (129 : Byte).toNat) ∧
    ((1 : Byte).toNat = Edition.e1.code ∧ (7 : Byte).toNat ≤ 7 ∧ (15 : Byte).toNat ≤ 15 ∧ (128 : Byte).toNat ≤ 128) ∧
    (busy.order (num16 0 6) = none ∧ num16 0 6 ≠ 0) ∧
    (busy.book = [] ++ order5 .active [0] :: [] ∧ (order5 .active [0]).id = num16 0 5 ∧ num16 0 5 ≠ 0) ∧
    ((9 : Byte).toNat = (9 : BinId).val ∧ 11 < (12 : Byte).toNat) := by decide

theorem witness_TheBeltMoves :
    (0 < { State.reset with track.backlash := 1 }.track.backlash) ∧
    (State.reset.track.backlash = 0 ∧ State.reset.dueHere = [] ∧ State.reset.gauge.eye ≠ .trailHeld) ∧
    (let s := { beltAt 200 [.strip (strip7 .measuring)] with gauge.eye := .trailHeld, gauge.objectStart := 200 };
      s.track.backlash = 0 ∧ s.dueHere = [] ∧ s.gauge.eye = .trailHeld ∧ s.gauge.objectStart = s.track.position) ∧
    (let s := { State.reset with beltRun := true };
      s.beltRun = true ∧ (∀ c ∈ [Cmd.removeStrip, .removeSpan, .lineClear, .marksSet, .removeLane],
        (s.port 0).frame = none ∧ (s.port 0).role.mayIssue c = true) ∧
      ([0, 1] : List Byte).length = cmdParams .removeStrip) ∧
    State.reset.ready 0 .status := by
  unfold State.ready
  decide

theorem witness_ReverseCountsRaiseTheBacklash :
    (∃ t, exec (.powerOn ⟨false, false, false, false, false⟩) State.reset = .next t) ∧
    (65535 ≤ { State.reset with track.backlash := 65535 }.track.backlash) ∧
    ∃ t, exec (.lineClear 0 (.ends [])) { State.reset with track.backlash := 65535 } = .next t :=
  ⟨⟨_, rfl⟩, by decide, _, rfl⟩

/-- The marks of Table 1-8 as the bytes of a MARKS_SET. -/
def tableMarks : List Byte :=
  (be24 8000 ++ be24 12000 ++ be24 20000 ++ be24 28000) ++
    (((List.range 11).map fun b => be24 (30000 + 2400 * b)).flatten ++ be24 58000)

theorem witness_MarksAreSetWhole :
    State.reset.ready 0 .marksSet ∧ tableMarks.length = 48 ∧
    (State.reset.allocated = 0 ∧ State.reset.beltRun = false) ∧ busy.allocated ≠ 0 ∧
    (after (.marksSet 0 (.ends tableMarks)) State.reset).map (fun t => (t.port 0).result) = some .ok ∧
    (after (.marksSet 0 (.ends (List.replicate 48 0))) State.reset).map (fun t => (t.port 0).result) =
      some .badField := by
  unfold State.ready
  decide

theorem witness_StepKeepsMarksBoundsAndGuard :
    (busy.marksOrdered ∧ busy.withinBounds) ∧
    (∃ t, step { busy with pending := [.guardOpen] } = .next t) ∧
    (let s := { busy with guardOpen := true };
      s.guardOpen = true ∧ ∀ c : ChannelId, (s.channel c).isPulsing = false) := by
  refine ⟨⟨?_, ?_⟩, ⟨_, rfl⟩, by decide⟩
  · unfold State.marksOrdered
    decide
  · unfold State.withinBounds
    decide

theorem witness_StripsAndSpansAreRemoved :
    (busy.ready 0 .removeStrip ∧ busy.ready 0 .removeSpan ∧ busy.beltRun = false) ∧
    (num16 0 0 = 0) ∧ (∃ r ∈ busy.queue .a, r.number = num16 0 9) ∧
    (num16 0 1 ≠ 0 ∧ busy.carried (num16 0 1) = false) ∧
    (num16 0 7 ≠ 0 ∧ (∀ r ∈ busy.queue .a, r.number ≠ num16 0 7) ∧ (∀ r ∈ busy.queue .b, r.number ≠ num16 0 7) ∧
      busy.carried (num16 0 7) = true) ∧
    ((200 : Pos) - pos24 0 0 200).toNat ≤ (pos24 0 0 200 - pos24 0 0 200).toNat ∧
    ¬ ((200 : Pos) - pos24 0 0 201).toNat ≤ (pos24 0 0 255 - pos24 0 0 201).toNat := by
  unfold State.ready
  decide

/-- Lane A drains for a recipe with one strip left. -/
def draining (target : DrainTarget) (tool : Nat) : State :=
  { (State.reset.modLane .a fun c => { c with state := .drain, target := target, pending := some ⟨1, 1, 1, tool⟩ }) with
    track.queues := ⟨[strip7 .inMoulder], []⟩ }

theorem witness_LanesAreRemoved :
    (State.reset.ready 0 .removeLane ∧ 2 ≤ (2 : Byte).toNat ∧ State.reset.beltRun = false) ∧
    ((queued .inMoulder).lane .a).state = .run ∧
    (State.reset.queue .a = [] ∧ (State.reset.lane .a).state.mayRemove = true) ∧
    (∀ s ∈ [draining .off 0, draining .recipe 1, draining .recipe 0],
      s.queue .a ≠ [] ∧ (s.lane .a).state.mayRemove = true ∧ (s.lane .a).state = .drain) ∧
    (((draining .off 0).lane .a).target = .off ∧ ((draining .recipe 1).lane .a).target = .recipe ∧
      ((draining .recipe 1).lane .a).pending = some ⟨1, 1, 1, 1⟩ ∧
      ((draining .recipe 1).lane .a).current.toolSet = 0 ∧
      ((draining .recipe 0).lane .a).pending = some ⟨1, 1, 1, 0⟩ ∧
      ((draining .recipe 0).lane .a).limits.resumeDelay ≠ 0) ∧
    (let s := { laneIn .hold with track.queues := ⟨[strip7 .atExit], []⟩ };
      s.queue .a ≠ [] ∧ (s.lane .a).state.mayRemove = true ∧ s.frontAtExit .a = true ∧
        (s.lane .a).state ≠ .drain) := by
  unfold State.ready
  decide

theorem witness_TheLineIsCleared :
    State.reset.ready 0 .lineClear ∧
    ({ State.reset with beltRun := true }.beltRun = true ∧ ((laneIn .run).lane .a).state ≠ .off ∧
      ((laneIn .run).lane .a).state ≠ .hold) ∧
    (let s := { busy with lanes.a.state := .hold };
      s.beltRun = false ∧ (s.lane .a).state = .hold ∧ (s.lane .b).state = .off ∧
        ∀ b, (s.bin b).state ≠ .closing ∧ (s.bin b).state ≠ .draining) ∧
    (∀ x ∈ [(OrderState.active, BinState.closing, 9), (.cancelling, .closing, 9), (.active, .draining, 0),
        (.active, .draining, 3)],
      let s := { bound5 x.1 x.2.1 x.2.2 [⟨7, 0, 100, true⟩] with track.belt := [.piece (piece7 (.assigned 0) none)] };
      s.beltRun = false ∧ (s.lane .a).state = .off ∧ (s.lane .b).state = .off ∧ (s.bin 0).state = x.2.1 ∧
        (s.bin 0).dropped = x.2.2 ∧ s.boundOrder 0 = some (order5 x.1 [0])) := by
  unfold State.ready
  decide

/-- LINE_CLEAR from a state with order 5 and its bin 0 in these states, so many pieces dropped and one expected. -/
def clearedBin (o : OrderState) (b : BinState) (dropped : Nat) : Option (BinState × OrderState) :=
  (after (.lineClear 0 (.ends [])) { bound5 o b dropped [⟨7, 0, 100, true⟩] with
    track.belt := [.piece (piece7 (.assigned 0) none)] }).bind fun t =>
      (t.order 5).map fun x => ((t.bin 0).state, x.state)

theorem test_lineClear_reopens_and_settles :
    clearedBin .active .closing 9 = some (.opened, .active) ∧
    clearedBin .cancelling .closing 9 = some (.labelled, .cancelling) ∧
    clearedBin .cancelling .draining 0 = some (.free, .cancelled) ∧
    clearedBin .active .draining 3 = some (.labelled, .active) ∧
    clearedBin .active .opened 3 = some (.opened, .active) := by decide +kernel

theorem witness_StepKeepsTheReserve :
    busy.reserved ∧ ∃ t, step { busy with pending := [.guardOpen] } = .next t := by
  have unplanned : ∀ r ∈ busy.strips, r.plan = none := by decide
  refine ⟨⟨by decide, by decide, fun r hr plan hp => ?_⟩, _, rfl⟩
  rw [unplanned r hr] at hp
  exact absurd hp (by simp)

/-! ### The lanes -/

/-- Lane A in RUN with a blank waiting. -/
def waiting : State := (laneIn .run).modLane .a fun c => { c with blankReady := true, blankWaiting := true }

/-- As `waiting`, with so many strips in transit. -/
def waitingAfter (n : Nat) : State :=
  { waiting with track.transit := (List.range n).map fun i => { strip7 .transit with number := BitVec.ofNat 16 (i + 1) } }

theorem witness_BlanksAreReleased :
    State.reset.canRelease .a = false ∧ waiting.canRelease .a = true ∧
    ((waitingAfter 31).canRelease .a = true ∧ (waitingAfter 31).freeRecords = 97) ∧
    (waitingAfter 32).canRelease .a = false ∧
    (waiting.audit.interval = 0) ∧
    (let s := { waiting with audit.interval := 2, audit.counter := 1 };
      s.canRelease .a = true ∧ s.audit.interval ≠ 0 ∧ s.audit.interval ≤ s.audit.counter + 1 ∧ s.audit.trace = .none) ∧
    (let s := { waiting with audit.interval := 1, audit.trace := .held };
      s.canRelease .a = true ∧ s.audit.interval ≤ s.audit.counter + 1 ∧ s.audit.trace ≠ .none) := by decide

theorem witness_LanesEnterTheirStates :
    (waiting.enterLane .a .run).canRelease .a = true ∧
    ((State.reset.enterLane .a .run).canRelease .a = false ∧ (State.reset.lane .a).blankReady = false ∧
      State.reset.queue .a = [] ∧ (State.reset.lane .a).limits.idleTimeout ≠ 0) ∧
    (((queued .inMoulder).enterLane .a .run).canRelease .a = false ∧ (queued .inMoulder).queue .a ≠ []) := by decide

theorem witness_LaneCommands :
    (∀ c ∈ [Cmd.laneStart, .laneRun, .toolReady, .laneHold, .laneStop],
      (State.reset.port 0).frame = none ∧ (State.reset.port 0).role.mayIssue c = true) ∧
    2 ≤ (2 : Byte).toNat := by decide

theorem witness_LaneRecipesAreTaken :
    State.reset.ready 0 .laneRecipe ∧ 2 ≤ (2 : Byte).toNat ∧ 7 < (8 : Byte).toNat ∧ (7 : Byte).toNat ≤ 7 ∧
    (0 : Byte) = BitVec.ofNat 8 (laneCode .a) ∧ (1 : Byte) = BitVec.ofNat 8 (laneCode .b) := by
  unfold State.ready
  decide

/-- Lane A drains for a recipe and its queue has just become empty. -/
def drained (target : DrainTarget) (tool : Nat) : State :=
  { draining target tool with track.queues := ⟨[], []⟩ }

theorem witness_LanesAnswerChanges :
    (((drained .off 0).lane .a).state = .drain ∧ (drained .off 0).queue .a = [] ∧
      ((drained .off 0).lane .a).target = .off) ∧
    (((drained .recipe 1).lane .a).target = .recipe ∧ ((drained .recipe 1).lane .a).pending = some ⟨1, 1, 1, 1⟩ ∧
      ((drained .recipe 1).lane .a).state = .drain ∧ (drained .recipe 1).queue .a = []) ∧
    (((draining .off 0).lane .a).state = .drain ∧ (draining .off 0).queue .a ≠ []) ∧
    ((waiting.lane .a).state = .run ∧ waiting.canRelease .a = true) ∧
    (((laneIn .run).lane .a).state = .run ∧ (laneIn .run).canRelease .a = false) ∧
    ((State.reset.lane .a).state ≠ .drain ∧ (State.reset.lane .a).state ≠ .run) ∧
    (waiting.canRelease .b = false ∧ (let s := { waiting with lanes := ⟨waiting.lanes.b, waiting.lanes.a⟩ };
      s.canRelease .a = false)) ∧
    (let s := { waiting with lanes := ⟨waiting.lanes.a, waiting.lanes.a⟩ };
      s.canRelease .a = true ∧ s.canRelease .b = true) := by decide

/-- A frame in progress at port 0. -/
def framed (c : Cmd) (i : Incremental) : State := State.reset.setPhase 0 c.code (.incremental i)

theorem witness_LaneLimitsAreSet :
    (State.reset.ready 0 .laneConfig ∧ 2 ≤ (2 : Byte).toNat ∧ (1 : Byte).toNat = laneCode .b) ∧
    (∀ h ∈ [Header.lane .a, .failed], ∀ i ∈ [Incremental.mk h [] false none],
      ((framed .laneConfig i).port 0).frame = some ⟨0x16, .incremental i⟩ ∧ i.buf = [] ∧ i.header ≠ .awaited) ∧
    (let s := framed .laneConfig ⟨.lane .a, [], false, none⟩;
      (s.lane .a).state = .off ∧ 12 ≤ (12 : BitVec 16).toNat ∧ (60000 : BitVec 16).toNat ≤ 60000 ∧
        ¬ (60001 : BitVec 16).toNat ≤ 60000 ∧ (255 : BitVec 16).toNat ≤ 255 ∧ ¬ 1 ≤ (0 : BitVec 16).toNat) := by
  unfold State.ready
  decide

theorem witness_BlankReadyEdges :
    (waiting.lane .a).blankReady = true ∧ (State.reset.lane .a).blankReady = false ∧
    (((laneIn .standby).lane .a).state = .standby ∧ ((laneIn .standby).lane .a).blankReady = false) ∧
    (let s := waiting; (s.lane .a).state = .run ∧ s.queue .a = [] ∧ (s.lane .a).limits.idleTimeout ≠ 0) := by decide

theorem witness_LaneTimersRunOut :
    (let s := State.reset.modLane .a fun c =>
        { c with delay := some 0, idle := some 3, releaseTimer := some 1, outfeedTimer := some 2 };
      (s.lane .a).delay = some 0 ∧ (s.lane .a).idle = some 3 ∧ (s.lane .a).releaseTimer = some 1 ∧
        (s.lane .a).outfeedTimer = some 2) ∧
    (let s := (queued .atExit).modLane .a fun c => { c with outfeedTimer := some 0 };
      (s.lane .a).outfeedTimer = some 0 ∧ s.frontAtExit .a = true) ∧
    ((State.reset.lane .a).delay = none ∧ (State.reset.lane .a).idle = none ∧
      (State.reset.lane .a).releaseTimer = none ∧ (State.reset.lane .a).outfeedTimer = none) ∧
    (let s := { State.reset with time := ⟨65535, 999⟩ };
      s.time.subMs < 1000 ∧ s.dueAll = [] ∧ (1 : Nat) ≠ 0) ∧
    (let s := (State.reset.modLane .a fun c => { c with delay := some 2, releaseTimer := some 3 }).modChannel 0
        fun x => { x with state := .pulsing 2000 };
      s.time.subMs < 1000 ∧ s.dueAll = [] ∧ (s.lane .a).delay = some 2 ∧ (2 : Nat) ≤ 3 ∧
        1000 * 2 - s.time.subMs ≤ 2000) := by decide

/-- Lane A's delay timer has 1 ms to go, lane B's 2 ms, and channel 0 is PULSING with a recovery of 30000. -/
def timed (left : Nat) : State :=
  ((State.reset.modLane .a fun c => { c with state := .starting, delay := some 1 }).modLane .b fun c =>
    { c with state := .starting, delay := some 2 }).modChannel 0 fun x => { x with state := .pulsing left }

theorem test_run_outs_on_the_way_come_at_their_ticks :
    (after (.delayTimerRunOut .b) (timed 500)).map (fun t =>
      ((t.channel 0).state, (t.lane .a).state, (t.lane .b).state, t.time.ms, (t.port 0).queue.map Event.time)) =
      some (.recovering 28500, .run, .run, 2, [1, 2]) := by decide +kernel

theorem test_a_pulse_ends_while_another_recovers :
    (after (.fireRecoveryEnd 1) ((timed 500).modChannel 1 fun x => { x with state := .recovering 700 })).map (fun t =>
      ((t.channel 0).state, (t.channel 1).state, t.time.subMs)) = some (.recovering 29800, .idle, 700) := by
  decide +kernel

theorem witness_StepKeepsTheLanesLawful :
    busy.lanesLawful ∧ ∃ t, step { busy with pending := [.blankReadyActive .a] } = .next t := by
  refine ⟨fun l => ?_, _, rfl⟩
  unfold State.laneLawful
  cases l <;> decide

/-! ### Holds, the merge and the entry gauge -/

theorem witness_HoldCausesAndLineFaults :
    (⟨false, true, false, false, false, false⟩ ≠ State.reset.holds) ∧
    (let s := { State.reset with holds.stray := true };
      (⟨false, false, false, false, false, false⟩ : Holds) ≠ s.holds) ∧
    State.reset.audit.fault = none ∧ audited.audit.fault ≠ none := by decide

theorem witness_HoldSetsTheOperatorCause :
    State.reset.ready 0 .hold ∧ State.reset.holds.operator = false ∧
    (let s := { State.reset with holds.operator := true };
      s.ready 0 .hold ∧ s.holds.operator = true) := by
  unfold State.ready
  decide

theorem witness_CausesAreCleared :
    ∀ c ∈ [Cmd.resume, .rejectCleared, .runoutCleared],
      (State.reset.port 0).frame = none ∧ (State.reset.port 0).role.mayIssue c = true := by decide

/-- A strip stands at the exit of each lane. -/
def bothAtExit (policy : MergePolicy) (last : Option Lane) : State :=
  { State.reset with
    track.queues := ⟨[strip7 .atExit], [{ strip7 .atExit with number := 8, lane := .b }]⟩
    lanes.a.state := .run, lanes.b.state := .run
    merge.policy := policy, merge.lastWinner := last }

theorem witness_TheArbiterGrants :
    ({ State.reset with holds.stray := true }.holds ≠ ⟨false, false, false, false, false, false⟩) ∧
    ({ State.reset with merge.gapOpen := false }.merge.gapOpen = false) ∧
    (State.reset.requests .a = false ∧ State.reset.requests .b = false) ∧
    (let s := { queued .atExit with merge.mergeGap := 0 };
      s.holds = ⟨false, false, false, false, false, false⟩ ∧ s.merge.gapOpen = true ∧ s.merge.mergeGap = 0 ∧
        s.requests .a = true ∧ s.requests (otherLane .a) = false ∧ s.queue .a = [strip7 .atExit] ∧
        s.arbitrate.requests .a = false ∧ s.arbitrate.requests .b = false) ∧
    (let s := { bothAtExit .primaryB none with merge.mergeGap := 0 };
      s.requests .a = true ∧ s.requests .b = true ∧ s.merge.mergeGap = 0 ∧ s.arbitrate.track.transit.length = 2 ∧
        let u := { s.grant .b with merge.gapOpen := true };
        u.requests .a = true ∧ u.requests .b = false ∧ u.queue .a = [strip7 .atExit]) ∧
    (let s := queued .atExit;
      s.holds = ⟨false, false, false, false, false, false⟩ ∧ s.merge.gapOpen = true ∧ s.merge.mergeGap ≠ 0 ∧
        s.requests .a = true ∧ s.queue .a = [strip7 .atExit] ∧ s.requests (otherLane .a) = false) ∧
    (∀ policy ∈ [MergePolicy.primaryA, .primaryB, .alternate], ∀ last ∈ [none, some Lane.a, some Lane.b],
      let s := bothAtExit policy last;
      s.requests .a = true ∧ s.requests .b = true ∧ s.merge.policy = policy ∧ s.merge.lastWinner = last ∧
        s.merge.mergeGap ≠ 0) := by decide

theorem witness_TheGapOpensAndStripsExit :
    State.reset.merge.gapOpen = true ∧
    (let s := { State.reset with merge.gapOpen := false, track.position := 199 };
      8388608 ≤ (s.track.position - (s.merge.lastGrant + BitVec.ofNat 24 s.merge.mergeGap)).toNat) ∧
    (let s := { State.reset with merge.gapOpen := false, track.position := 200 };
      s.merge.gapOpen = false ∧
        (s.track.position - (s.merge.lastGrant + BitVec.ofNat 24 s.merge.mergeGap)).toNat < 8388608) ∧
    (State.reset.queue .a = [] ∧ (queued .atExit).queue .a = [strip7 .atExit] ∧
      (strip7 .atExit).state ≠ .inMoulder ∧ (queued .inMoulder).queue .a = [strip7 .inMoulder] ∧
      (strip7 .inMoulder).state = .inMoulder) := by decide

theorem witness_TransitRecordsTimeOut :
    (let s := { State.reset with track.transit := [strip7 .transit], track.position := 4000 };
      s.track.transit = [strip7 .transit] ∧
        (s.track.position - ((0 : Pos) + BitVec.ofNat 24 s.merge.transitMax)).toNat < 8388608) ∧
    (let s := { State.reset with
          track.transit := [strip7 .transit, { strip7 .transit with number := 8, grantPos := some 1 }]
          track.position := 4000 };
      (s.track.position - ((0 : Pos) + BitVec.ofNat 24 s.merge.transitMax)).toNat < 8388608 ∧
        ¬ (s.track.position - ((1 : Pos) + BitVec.ofNat 24 s.merge.transitMax)).toNat < 8388608) := by decide

theorem test_transit_records_time_out_oldest_first :
    (after .transitTimeout { State.reset with
        track.transit := [{ strip7 .transit with number := 8, lane := .b }, strip7 .transit]
        track.position := 4000 }).map (fun t =>
      (t.track.transit.length, (t.port 0).queue.map fun e => (e.kind, e.number, e.subject), t.audit.fault.map
        FaultRec.number)) = some (0, [(.fault, 8, 1), (.fault, 7, 0)], some 8) := by decide

theorem witness_EntryEyeLeadEdges :
    ({ State.reset with gauge.eye := .covered }.gauge.eye = .covered) ∧
    ({ State.reset with gauge.eye := .trailHeld }.gauge.eye = .trailHeld) ∧
    (State.reset.gauge.eye = .clear ∧ State.reset.track.transit = []) ∧
    (busy.gauge.eye = .clear ∧ busy.track.transit = [{ strip7 .transit with number := 8 }]) := by decide

/-- Strip 7, whose lead edge came at 200, covers the eye at a position. -/
def covering (position : Nat) : State :=
  { beltAt position [.strip { strip7 .measuring with length := none }] with
    gauge.eye := .covered, gauge.objectStart := 200 }

theorem witness_EntryEyeTrailEdgesMeasure :
    State.reset.gauge.eye ≠ .covered ∧
    ((covering 200).gauge.eye = .covered ∧ (covering 200).track.position = (covering 200).gauge.objectStart) ∧
    (let s := { beltAt 9 [] with gauge.eye := .covered, gauge.untracked := true };
      s.gauge.eye = .covered ∧ s.track.position ≠ s.gauge.objectStart ∧
        (∀ r ∈ s.beltStrips, r.state ≠ .measuring) ∧ s.gauge.untracked = true) ∧
    ({ beltAt 9 [] with gauge.eye := .covered }.gauge.untracked = false) ∧
    (∀ len ∈ [999, 1000, 6400, 6401],
      (covering (200 + len)).measuring = some { strip7 .measuring with length := none } ∧
        ((covering (200 + len)).track.position - (200 : Pos)).toNat = len ∧
        (covering (200 + len)).track.position ≠ (covering (200 + len)).gauge.objectStart) ∧
    (covering 0).gauge.minStrip = 1000 ∧ (covering 0).gauge.maxStrip = 6400 := by decide

/-! ### Grading -/

theorem witness_TheMapIsWritten :
    (State.reset.ready 0 .mapWrite ∧ 8 ≤ (8 : Byte).toNat ∧ 16 ≤ (16 : Byte).toNat ∧ (7 : Byte).toNat < 8 ∧
      (15 : Byte).toNat < 16) ∧
    (∀ h ∈ [Header.pointer 127, .failed], ∀ b ∈ [none, some true, some false],
      let i : Incremental := ⟨h, [], false, b⟩;
      ((framed .mapWrite i).port 0).frame = some ⟨0x20, .incremental i⟩ ∧ i.buf = []) ∧
    (Edition.e1 ≠ (framed .mapWrite ⟨.pointer 127, [], false, none⟩).grading.active ∧
      (framed .mapWrite ⟨.pointer 127, [], false, none⟩).referenceCount .e1 = 0) ∧
    (let s := { State.reset with track.transit := [{ strip7 .transit with edition := .e1 }] };
      0 < s.referenceCount .e1) ∧
    (10 ≤ (10 : Byte).toNat ∧ (9 : Byte).toNat = Grade.regrade.code) := by
  unfold State.ready
  decide

theorem witness_MapCommitGradeModeAndSampleSet :
    (∀ c ∈ [Cmd.mapCommit, .gradeMode, .sampleSet],
      (State.reset.port 0).frame = none ∧ (State.reset.port 0).role.mayIssue c = true) ∧
    Edition.e1 ≠ State.reset.grading.active ∧ 256 * (16 : Byte).toNat + (0 : Byte).toNat ≤ 4096 := by decide

/-- A VERDICT's bytes: strip 7, one segment. -/
def verdictBytes (start stop count : Nat) : List Byte :=
  be16 7 ++ [0] ++ be16 0 ++ be16 0 ++ be16 0 ++ [BitVec.ofNat 8 count] ++ be16 start ++ be16 stop ++ [15] ++
    List.replicate 15 0

/-- Strip 7 on the belt in a state, with the scanner at port 1. -/
def gradeable (r : StripRec) : State := { at1 .scanner with track.belt := [.strip r] }

theorem witness_VerdictsAndGradeEntries :
    ((at1 .scanner).ready 1 .verdict ∧ (at1 .scanner).ready 0 .gradeEntry ∧ (verdictBytes 0 600 1).length = 30) ∧
    ((at1 .scanner).grading.mode = .scanner ∧ { at1 .scanner with grading.mode := .manual }.grading.mode = .manual) ∧
    (State.reset.carried 7 = false) ∧
    ((gradeable (strip7 .measuring)).strip 7 = some (strip7 .measuring) ∧ (strip7 .measuring).state ≠ .awaitGrade ∧
      (strip7 .measuring).state ≠ .planned) ∧
    ((gradeable planned7).strip 7 = some planned7 ∧ planned7.state = .planned ∧ planned7.plan ≠ none) ∧
    (let s := beltAt 0 [.piece (piece7 .onBelt none)];
      s.strip 7 = none ∧ (s.pieces.find? fun x => x.number == 7) = some (piece7 .onBelt none)) ∧
    ((gradeable (strip7 .awaitGrade)).strip 7 = some (strip7 .awaitGrade) ∧ (strip7 .awaitGrade).length = some 5000) ∧
    ((after (.verdict 1 (.ends (verdictBytes 0 600 1))) (gradeable (strip7 .awaitGrade))).map (fun t =>
      (t.port 1).result) = some .ok) ∧
    (∀ bs ∈ [verdictBytes 0 599 1, verdictBytes 0 5001 1, verdictBytes 0 600 0, verdictBytes 0 600 5],
      (after (.verdict 1 (.ends bs)) (gradeable (strip7 .awaitGrade))).map (fun t => (t.port 1).result) =
        some .badPlan) := by
  unfold State.ready
  decide

theorem witness_DeadlinesPlanByDefault :
    (let s := beltAt 8200 [.strip (strip7 .measuring)];
      s.beltStrip 7 = some (strip7 .measuring) ∧ (strip7 .measuring).state ≠ .awaitGrade) ∧
    (let s := { beltAt 8200 [.strip (strip7 .awaitGrade)] with ports := (at1 .scanner).ports };
      s.beltStrip 7 = some (strip7 .awaitGrade) ∧ (strip7 .awaitGrade).lead = some 200 ∧
        (200 : Pos) + BitVec.ofNat 24 s.track.marks.deadline = s.track.position ∧
        (s.port 1).role = .scanner ∧ s.portsLawful) ∧
    (∀ q, (State.reset.port q).role ≠ .scanner) := by
  unfold State.portsLawful
  decide

/-! ### The split and the fire channels -/

/-- A schedule of so many entries for other records. -/
def entries (n : Nat) : List FireEntry := List.replicate n ⟨5000, 4, 1, 0, .gate⟩

theorem witness_StripsAreSplitAtTrim :
    (let s := beltAt 12200 [.strip (strip7 .awaitGrade)];
      s.beltStrip 7 = some (strip7 .awaitGrade) ∧ (strip7 .awaitGrade).state ≠ .planned) ∧
    (let s := beltAt 12200 [.strip planned7];
      s.beltStrip 7 = some planned7 ∧ planned7.state = .planned ∧ planned7.lead = some 200 ∧
        planned7.length = some 5000 ∧ (200 : Pos) + BitVec.ofNat 24 s.track.marks.trim = s.track.position ∧
        (∀ plan ∈ planned7.plan.toList, (s.strokes planned7 plan).map FireEntry.purpose =
          [.cut, .cut, .tongue, .groove, .tongue, .groove])) ∧
    ([2000, 2500] : List Nat).Pairwise (· < ·) ∧
    (∀ x ∈ [2000, 2500], 0 < x ∧ x < 5000 ∧ ∃ plan ∈ planned7.plan, ∃ g ∈ plan.segments, x = g.start ∨ x = g.stop) ∧
    (∀ n ∈ [58, 59], let s := { beltAt 12200 [.strip planned7] with fire.schedule := entries n };
      s.fire.schedule.length = n) := by decide

/-- A stroke due on a channel for piece 7. -/
def due (c : ChannelId) (why : Purpose) : State :=
  { beltAt 900 [.piece (piece7 .onBelt none)] with
    fire.schedule := [⟨5000, 3, 7, 0, .gate⟩, ⟨900, c, 7, 0, why⟩, ⟨5000, 2, 7, 0, .groove⟩] }

theorem witness_FireRequestsAreAnswered :
    (∀ e ∈ State.reset.fire.schedule, e.channel ≠ 0 ∨ e.position ≠ State.reset.track.position) ∧
    (∀ x ∈ [((0 : ChannelId), Purpose.cut), (1, .tongue), (2, .groove), (3, .gate)],
      let s := due x.1 x.2;
      s.fire.schedule = [⟨5000, 3, 7, 0, .gate⟩] ++ ⟨900, x.1, 7, 0, x.2⟩ :: [⟨5000, 2, 7, 0, .groove⟩] ∧
        s.track.position = 900 ∧ (s.channel x.1).state = .idle ∧ s.guardOpen = false) ∧
    (let s := { due 0 .cut with guardOpen := true };
      s.guardOpen = true) ∧
    (let s := (due 0 .cut).modChannel 0 fun x => { x with state := .recovering 5 };
      (s.channel 0).state ≠ .idle) := by decide

theorem witness_ChannelsEndTheirStrokesAndAreTimed :
    (∀ n ∈ [0, 7], ((State.reset.modChannel 0 fun x => { x with state := .pulsing n }).channel 0).state = .pulsing n ∧
      ((State.reset.modChannel 0 fun x => { x with state := .recovering n }).channel 0).state = .recovering n) ∧
    (State.reset.channel 0).state = .idle ∧
    (let s := State.reset.modChannel 0 fun x => { x with state := .pulsing 7 };
      s.dueAll = [] ∧ (s.channel 0).state = .pulsing 7 ∧ (7 : Nat) < 9 ∧ 9 ≤ 7 + (s.channel 0).current.recovery) ∧
    (let s := State.reset.modChannel 0 fun x => { x with state := .pulsing 7, current := ⟨100, 0⟩ };
      s.dueAll = [] ∧ (s.channel 0).current.recovery = 0) ∧
    (let s := State.reset.modChannel 0 fun x => { x with state := .recovering 7 };
      s.dueAll = [] ∧ (s.channel 0).state = .recovering 7) ∧
    State.reset.ready 0 .channelSet ∧
    (let i : Incremental := ⟨.noHeader, [], false, none⟩;
      ((framed .channelSet i).port 0).frame = some ⟨0x17, .incremental i⟩) ∧
    (14 ≤ (14 : Byte).toNat ∧ (99 : BitVec 16).toNat < 100 ∧ (13 : Byte).toNat = (13 : ChannelId).val ∧
      100 ≤ (100 : BitVec 16).toNat) := by
  unfold State.ready
  decide

theorem witness_TheGuardOpensAndCloses :
    ({ State.reset with guardOpen := true }.guardOpen = true) ∧ State.reset.guardOpen = false ∧
    ((State.reset.modChannel 0 fun x => { x with state := .pulsing 5 }).channel 0).state = .pulsing 5 := by decide

/-! ### Orders, bins and the sort -/

/-- Every bin but bin 4 out of service, and an order in the book. -/
def oneFree : State :=
  { State.reset with
    book := [{ order5 .queued [] with id := 6, priority := 3 }, order5 .queued [], { order5 .queued [] with id := 8 }]
    bnc.bins := (Vector.replicate 10 { OrderBin.powerOn with state := .outOfService }).set 4 OrderBin.powerOn }

theorem witness_TheBinArbiterBinds :
    (let s := { State.reset with bnc.bins := Vector.replicate 10 { OrderBin.powerOn with state := .outOfService } };
      ∀ b, (s.bin b).state ≠ .free) ∧
    (∀ o ∈ State.reset.book, o.needsBin = false) ∧
    (oneFree.withinBounds ∧
      oneFree.book = [{ order5 .queued [] with id := 6, priority := 3 }] ++
        order5 .queued [] :: [{ order5 .queued [] with id := 8 }] ∧
      (order5 .queued []).needsBin = true ∧ (3 : Nat) < (order5 .queued []).priority ∧
      (∀ c, (oneFree.bin c).state = .free ↔ c = 4)) ∧
    (let s := oneFree.modBin 7 fun _ => OrderBin.powerOn;
      (s.bin 4).state = .free ∧ (s.bin 7).state = .free ∧ (∀ c, c < 4 → (s.bin c).state ≠ .free) ∧
        (after (.binService 0 (.ends [9, 1])) s).map (fun t => ((t.bin 4).order, (t.bin 7).order, (t.bin 9).order)) =
          some (some 5, some 5, some 8)) := by
  unfold State.withinBounds
  decide +kernel

theorem witness_OrdersArePut :
    State.reset.ready 0 .orderPut ∧
    (let s := { State.reset with book := List.replicate 32 (order5 .queued []) };
      32 ≤ s.book.length) ∧
    (let s := { State.reset with book := [order5 .queued []] };
      s.book.length < 32 ∧ ∃ x ∈ s.book, x.id = (order5 .queued []).id) ∧
    (State.reset.book.length < 32 ∧ ∀ x ∈ State.reset.book, x.id ≠ 5) ∧
    (∀ o ∈ [order5 .queued [], { order5 .queued [] with profile := 7, longShare := 100, priority := 7, maxBins := 4 },
        { order5 .queued [] with ordered := 9999, target := 999 }],
      o.id ≠ 0 ∧ o.gradeSet ≠ 0 ∧ o.profile ≤ 7 ∧ o.bandMin < o.bandMax ∧ 1 ≤ o.target ∧ o.target ≤ 999 ∧
        o.longShare ≤ 100 ∧ 1 ≤ o.ordered ∧ o.ordered ≤ 9999 ∧ o.priority ≤ 7 ∧ 1 ≤ o.maxBins ∧ o.maxBins ≤ 4) ∧
    (let o := { order5 .queued [] with bandMax := 1000 };
      o.bandMax ≤ o.bandMin) := by
  unfold State.ready
  decide

theorem witness_OrderCommandsActOnTheirOrder :
    (∀ c ∈ [Cmd.orderSuspend, .orderResume, .orderAdd, .orderCancel, .orderRetire],
      ((bound5 .active .opened 0 []).port 0).frame = none ∧
        ((bound5 .active .opened 0 []).port 0).role.mayIssue c = true) ∧
    (BitVec.ofNat 16 (256 * (0 : Byte).toNat + (0 : Byte).toNat) = (0 : OrderId)) ∧
    (∀ x ∈ State.reset.book, x.id ≠ 5) ∧
    (∀ st ∈ [OrderState.queued, .active, .suspended, .cancelling, .complete, .cancelled],
      (bound5 st .opened 0 []).order 5 = some (order5 st [0])) ∧
    ((256 * (39 : Byte).toNat + (15 : Byte).toNat) + 3 = 10002) := by decide

theorem witness_BinsDrainAndAreGivenBack :
    (((bound5 .active .opened 0 [⟨7, 0, 100, true⟩]).bin 0).expected ≠ [] ∧
      ((bound5 .active .opened 0 []).bin 0).expected = [] ∧ ((bound5 .active .opened 0 []).bin 0).dropped = 0 ∧
      ((bound5 .active .opened 3 []).bin 0).dropped ≠ 0) ∧
    (((bound5 .cancelling .labelled 3 []).bin 0).order = some 5 ∧
      (bound5 .cancelling .labelled 3 []).order 5 = some (order5 .cancelling [0]) ∧
      (order5 .cancelling [0]).bins.Nodup) ∧
    (∀ b ∈ [BinState.opened, .closing, .draining, .labelWait],
      (bound5 .active b 0 [⟨7, 0, 100, true⟩]).expectedOf (gateOfBin 0) 7 0 = some ⟨7, 0, 100, true⟩ ∧
        ((bound5 .active b 0 [⟨7, 0, 100, true⟩]).bin 0).state = b ∧
        (bound5 .active b 0 [⟨7, 0, 100, true⟩]).boundOrder 0 = some (order5 .active [0])) ∧
    (let s := bound5 .active .draining 3 [⟨7, 0, 100, true⟩, ⟨8, 0, 200, true⟩];
      s.expectedOf (gateOfBin 0) 7 0 = some ⟨7, 0, 100, true⟩ ∧
        (s.bin 0).expected.eraseP (fun y => decide (y.number = 7 ∧ y.index = 0)) ≠ []) ∧
    (let s := bound5 .active .draining 3 [⟨7, 0, 100, true⟩];
      (s.bin 0).expected.eraseP (fun y => decide (y.number = 7 ∧ y.index = 0)) = [] ∧ (s.bin 0).dropped ≠ 0) := by
  decide

theorem witness_BinServiceAndBinCleared :
    (State.reset.ready 0 .binService ∧ State.reset.ready 0 .binCleared ∧ 10 ≤ (10 : Byte).toNat ∧
      2 ≤ (2 : Byte).toNat ∧ (9 : Byte).toNat = (9 : BinId).val) ∧
    ((State.reset.bin 9).state ≠ .labelled) ∧
    (∀ st ∈ [OrderState.active, .complete],
      ((bound5 st .labelled 10 []).bin 0).state = .labelled ∧ ((bound5 st .labelled 10 []).bin 0).order = some 5 ∧
        (bound5 st .labelled 10 []).order 5 = some (order5 st [0])) := by
  unfold State.ready
  decide

/-- Piece 7 arrives at SORT, with order 5 at bins 0 and 1. -/
def sorting (why : Option Reason) : State :=
  { (bound5 .active .opened 0 []).modBin 1 fun _ => bin5 .opened 0 [] with
    track := (beltAt 28200 [.piece (piece7 .onBelt why)]).track, book := [order5 .active [0, 1]] }

theorem witness_PiecesAreSorted :
    (let s := beltAt 28201 [.piece (piece7 .onBelt none)];
      (200 : Pos) + BitVec.ofNat 24 s.track.marks.sort ≠ s.track.position) ∧
    (∀ why ∈ [none, some Reason.width],
      (sorting why).piece 7 0 = some (piece7 .onBelt why) ∧
        (200 : Pos) + BitVec.ofNat 24 (sorting why).track.marks.sort = (sorting why).track.position) ∧
    (sorting none).eligibleBins (piece7 .onBelt none) = [(0, order5 .active [0, 1]), (1, order5 .active [0, 1])] ∧
    (let s := beltAt 28200 [.piece (piece7 .onBelt none)];
      s.eligibleBins (piece7 .onBelt none) = []) ∧
    ((sorting (some .width)).bnc.reject.dropped + (sorting (some .width)).bnc.reject.expected.length <
      (sorting (some .width)).bnc.rejectMax) ∧
    (let s := { sorting (some .width) with bnc.reject := ⟨300, []⟩ };
      s.bnc.rejectMax ≤ s.bnc.reject.dropped + s.bnc.reject.expected.length) ∧
    ((entries 63).length < 64 ∧ ¬ (entries 64).length < 64) := by decide

theorem witness_DropEyePulses :
    (∀ b, State.reset.expected b = []) ∧
    (let s := { beltAt 0 [.piece (piece7 (.assigned 10) (some .width))] with bnc.reject := ⟨0, [⟨7, 0, 100, false⟩]⟩ };
      s.bnc.reject.expected = ⟨7, 0, 100, false⟩ :: [] ∧ s.piece 7 0 = some (piece7 (.assigned 10) (some .width))) ∧
    (∀ b ∈ [BinState.opened, .closing, .draining],
      let s := { bound5 .active b 9 [⟨7, 0, 100, false⟩] with track.belt := [.piece (piece7 (.assigned 0) none)] };
      (s.bin 0).expected = ⟨7, 0, 100, false⟩ :: [] ∧ s.piece 7 0 = some (piece7 (.assigned 0) none) ∧
        s.boundOrder 0 = some (order5 .active [0]) ∧ (s.bin 0).state = b) := by decide

theorem witness_MisdropsAndRunouts :
    State.reset.expectedOf 0 7 0 = none ∧
    (let s := { bound5 .active .opened 0 [⟨7, 0, 100, false⟩] with
        track := (beltAt 100 [.piece (piece7 (.assigned 0) none)]).track };
      s.expectedOf 0 7 0 = some ⟨7, 0, 100, false⟩ ∧ s.track.position = 100 ∧
        s.piece 7 0 = some (piece7 (.assigned 0) none)) ∧
    (let s := beltAt 58200 [.piece (piece7 .riding none)];
      s.piece 7 0 = some (piece7 .riding none) ∧
        (200 : Pos) + BitVec.ofNat 24 s.track.marks.runout = s.track.position ∧
        min 65535 (s.bnc.runoutCount + 1) < s.bnc.runoutMax) ∧
    (let s := { beltAt 58200 [.piece (piece7 .riding none)] with bnc.runoutCount := 65535 };
      s.bnc.runoutMax ≤ min 65535 (s.bnc.runoutCount + 1)) := by decide

theorem witness_RemovalsReachTheirOwners :
    (let s := { busy with audit.trace := .inProgress };
      s.audit.trace = .inProgress ∧ s.tracedCount = 0) ∧
    (piece7 (.assigned 0) none).state = .assigned 0 ∧ (piece7 .onBelt none).state = .onBelt := by decide

/-! ### Limits -/

theorem witness_LimitsAreSet :
    State.reset.ready 0 .limitsSet ∧
    (let i : Incremental := ⟨.noHeader, [], false, none⟩;
      ((framed .limitsSet i).port 0).frame = some ⟨0x04, .incremental i⟩ ∧ i.header = .noHeader ∧ i.buf = []) := by
  unfold State.ready
  decide

/-- The result of a LIMITS_SET frame of these groups from reset. -/
def limitResult (groups : List (Byte × Nat)) : Option Result :=
  (after (.limitsSet 0 (.ends (groups.flatMap fun x => x.1 :: be16 x.2))) State.reset).map fun t => (t.port 0).result

theorem test_limits_at_their_bounds :
    limitResult [(0, 2), (1, 4000), (2, 100), (3, 6399), (4, 7000), (5, 8000), (6, 500), (7, 500), (8, 110), (9, 110),
      (10, 200), (11, 200), (12, 3999), (13, 1), (14, 500)] = some .ok := by decide +kernel

theorem test_limits_beyond_their_bounds :
    ∀ x ∈ [((0 : Byte), 3), (1, 4001), (2, 99), (3, 6400), (4, 8000), (5, 199), (6, 501), (7, 501), (8, 111), (9, 59),
        (10, 201), (11, 199), (12, 4000), (13, 0), (14, 501), (15, 0)],
      limitResult [x] = some .badField := by decide +kernel

end Sys2Proof.Machine
end

/-! R15: the backlash count at a reverse encoder count, at power-on and through LINE_CLEAR. -/

namespace Sys2Proof.Machine

/-- R15, R28: port writes do not reach the track, and LINE_CLEAR, when taken, clears its records alone. -/
theorem wholeStep_lineClear_keeps_belt (p : PortId) (st : FrameStep) (s : State) :
    (wholeStep .lineClear takeLineClear p st s).track.backlash = s.track.backlash ∧
    (wholeStep .lineClear takeLineClear p st s).track.position = s.track.position := by
  refine wholeStep_keeps .lineClear takeLineClear
    (fun t => t.track.backlash = s.track.backlash ∧ t.track.position = s.track.position)
    ?port ?take st ⟨rfl, rfl⟩
  case port =>
    intro t q r f kept
    exact kept
  case take =>
    rintro t ps ⟨hbacklash, hposition⟩
    have taken := takeLineClear_evolves ps t
    exact ⟨taken.backlash.trans hbacklash, taken.position.trans hposition⟩

/-- R15: the capped sum of the model is the saturating count of the rule. -/
theorem State.reverse_eq (s : State) : s.reverse =
    { s with track.backlash := if 65535 ≤ s.track.backlash then 65535 else s.track.backlash + 1 } := by
  have capped : min 65535 (s.track.backlash + 1) =
      if 65535 ≤ s.track.backlash then 65535 else s.track.backlash + 1 := by
    split <;> omega
  rw [State.reverse, capped]

/-- 00_scope.md 1.6.6: at every level of the inputs the track is at its power-on state. -/
@[simp] theorem State.powerUp_track (s : State) (levels : InputLevels) :
    (s.powerUp levels).track = Track.powerOn := rfl

/-- Settles O19: the count saturates by `State.reverse_eq`, starts at 0 with the track's power-on state, and
every step of a LINE_CLEAR frame keeps it and the belt position. -/
theorem reverseCountsRaiseTheBacklash : Obligations.ReverseCountsRaiseTheBacklash := by
  refine ⟨fun s => ?counts, rfl, fun levels s t h => ?powerOn, fun p st s t h => ?lineClear⟩
  case counts =>
    exact congrArg Host.Outcome.next s.reverse_eq
  case powerOn =>
    obtain rfl : s.powerUp levels = t := Host.Outcome.next.inj h
    rw [State.powerUp_track]
    rfl
  case lineClear =>
    obtain rfl : wholeStep .lineClear takeLineClear p st s = t := Host.Outcome.next.inj h
    exact wholeStep_lineClear_keeps_belt p st s

end Sys2Proof.Machine

/-! R145, R163: BIN_SERVICE and BIN_CLEARED. -/

namespace Sys2Proof.Machine

/-! ## Bin numbers, and the order a bin is bound to -/

theorem binOfCode_eq_some {bin : Byte} {b : BinId} (h : bin.toNat = b.val) : binOfCode bin = some b := by
  have small : bin.toNat < 10 := h ▸ b.isLt
  rw [binOfCode, dif_pos small]
  exact congrArg some (Fin.ext h)

theorem binOfCode_eq_none {bin : Byte} (h : 10 ≤ bin.toNat) : binOfCode bin = none :=
  dif_neg (Nat.not_lt.mpr h)

theorem State.order_id {s : State} {i : OrderId} {o : Order} (h : s.order i = some o) : o.id = i := by
  simpa using List.find?_some h

theorem State.boundOrder_eq_some {s : State} {b : BinId} {i : OrderId} {o : Order} (hb : (s.bin b).order = some i)
    (ho : s.order i = some o) : s.boundOrder b = some o := by
  rw [State.boundOrder, hb, Option.bind_some, ho]

theorem Order.refills_iff (o : Order) :
    o.refills = true ↔ (o.state = .active ∨ o.state = .suspended) ∧ o.labelled + o.opened < o.ordered := by
  simp [Order.refills]

/-! ## A bin that is changed and then enters a state -/

/-- A change of a bin depends on what it makes of that bin's own record alone. -/
theorem State.modBin_congr {s : State} {b : BinId} {f g : OrderBin → OrderBin} (h : f (s.bin b) = g (s.bin b)) :
    s.modBin b f = s.modBin b g := by
  have record : f s.bnc.bins[b] = g s.bnc.bins[b] := h
  rw [State.modBin, State.modBin, record]

/-- Two changes of one bin are one change. -/
theorem State.modBin_modBin (s : State) (b : BinId) (f g : OrderBin → OrderBin) :
    (s.modBin b f).modBin b g = s.modBin b fun x => g (f x) := by
  simp [State.modBin]

theorem State.modBin_enterBin (s : State) (b : BinId) (f : OrderBin → OrderBin) (st : BinState) :
    (s.modBin b f).enterBin b st =
      (s.modBin b fun x => { f x with state := st }).raise .binState st.code 0 0 b.val := by
  rw [State.enterBin, State.modBin_modBin]

/-- R163: a refilled bin is OPEN with zero contents, bound as before, and its order counts it among its bundles open. -/
theorem State.refill_eq {s : State} {b : BinId} {i : OrderId} {o : Order} (hb : (s.bin b).order = some i)
    (hid : o.id = i) : s.refill b o =
      ((s.modBin b fun _ => { OrderBin.powerOn with state := .opened, order := some i }).raise .binState 1 0 0
        b.val).modOrder i fun x => { x with opened := x.opened + 1 } := by
  have record : (s.modBin b fun x => { OrderBin.powerOn with state := .opened, order := x.order }) =
      s.modBin b fun _ => { OrderBin.powerOn with state := .opened, order := some i } :=
    State.modBin_congr (by rw [hb])
  rw [State.refill, State.modBin_enterBin, record, hid]
  rfl

/-! ## BIN_SERVICE -/

/-- R184: BIN_SERVICE is the supervisor's. -/
theorem Role.mayIssue_binService (r : Role) : r.mayIssue .binService = true ↔ r = .supervisor := by
  cases r <;> decide

section
variable {p : PortId} {s : State} (ready : s.ready p .binService)
include ready

theorem exec_binService_length {bs : List Byte} (h : bs.length ≠ 2) :
    exec (.binService p (.ends bs)) s = .next (s.setResult p .length) :=
  congrArg Host.Outcome.next (wholeStep_length .binService takeBinService ready h)

theorem exec_binService_taken (bin service : Byte) : exec (.binService p (.ends [bin, service])) s =
    .next ((takeBinService [bin, service] s).1.setResult p (takeBinService [bin, service] s).2) :=
  congrArg Host.Outcome.next (wholeStep_taken .binService takeBinService ready rfl)

theorem exec_binService_badField {bin service : Byte} (h : 10 ≤ bin.toNat ∨ 2 ≤ service.toNat) :
    exec (.binService p (.ends [bin, service])) s = .next (s.setResult p .badField) := by
  have refused : takeBinService [bin, service] s = (s, .badField) := by
    rw [takeBinService]
    rcases Nat.lt_or_ge bin.toNat 10 with listed | above
    · have notOff : service ≠ 0 := by bv_omega
      have notOn : service ≠ 1 := by bv_omega
      rw [binOfCode_eq_some (b := ⟨bin.toNat, listed⟩) rfl]
      simp only [if_neg notOff, if_neg notOn]
    · rw [binOfCode_eq_none above]
  rw [exec_binService_taken ready, refused]

variable {bin : Byte} {b : BinId} (listed : bin.toNat = b.val)
include listed

/-- R145: off is taken in FREE. -/
theorem exec_binService_off : exec (.binService p (.ends [bin, 0])) s = .next
    (if (s.bin b).state = .free then (s.enterBin b .outOfService).setResult p .ok else s.setResult p .state) := by
  have off : takeBinService [bin, 0] s = serviceOff b s := by
    rw [takeBinService, binOfCode_eq_some listed]
    rfl
  rw [exec_binService_taken ready, off, serviceOff]
  by_cases free : (s.bin b).state = .free
  · simp only [if_pos free]
  · simp only [if_neg free]

/-- R145: on is taken in OUT_OF_SERVICE. -/
theorem exec_binService_on : exec (.binService p (.ends [bin, 1])) s = .next
    (if (s.bin b).state = .outOfService then ((s.enterBin b .free).runArbiter).setResult p .ok
    else s.setResult p .state) := by
  have on : takeBinService [bin, 1] s = serviceOn b s := by
    rw [takeBinService, binOfCode_eq_some listed]
    rfl
  rw [exec_binService_taken ready, on, serviceOn]
  by_cases out : (s.bin b).state = .outOfService
  · simp only [if_pos out]
  · simp only [if_neg out]

end

/-! ## BIN_CLEARED -/

/-- R184: BIN_CLEARED is the supervisor's and dispatch's. -/
theorem Role.mayIssue_binCleared (r : Role) :
    r.mayIssue .binCleared = true ↔ r = .supervisor ∨ r = .dispatch := by
  cases r <;> decide

section
variable {p : PortId} {s : State} (ready : s.ready p .binCleared)
include ready

theorem exec_binCleared_taken (bin : Byte) : exec (.binCleared p (.ends [bin])) s =
    .next ((takeBinCleared [bin] s).1.setResult p (takeBinCleared [bin] s).2) :=
  congrArg Host.Outcome.next (wholeStep_taken .binCleared takeBinCleared ready rfl)

theorem exec_binCleared_badField {bin : Byte} (h : 10 ≤ bin.toNat) :
    exec (.binCleared p (.ends [bin])) s = .next (s.setResult p .badField) := by
  rw [exec_binCleared_taken ready, takeBinCleared, binOfCode_eq_none h]

variable {bin : Byte} {b : BinId} (listed : bin.toNat = b.val)
include listed

theorem exec_binCleared_listed : exec (.binCleared p (.ends [bin])) s =
    .next ((clearBin b s).1.setResult p (clearBin b s).2) := by
  rw [exec_binCleared_taken ready, takeBinCleared, binOfCode_eq_some listed]

theorem exec_binCleared_state (h : (s.bin b).state ≠ .labelled) :
    exec (.binCleared p (.ends [bin])) s = .next (s.setResult p .state) := by
  rw [exec_binCleared_listed ready listed, clearBin, if_neg h]

/-- R163: a LABELLED bin is refilled while its order goes on, else given back. -/
theorem exec_binCleared_labelled (h : (s.bin b).state = .labelled) {o : Order} (bound : s.boundOrder b = some o) :
    exec (.binCleared p (.ends [bin])) s = .next
      (if (o.state = .active ∨ o.state = .suspended) ∧ o.labelled + o.opened < o.ordered then
        (s.refill b o).setResult p .ok
      else (s.giveBack b 0).setResult p .ok) := by
  rw [exec_binCleared_listed ready listed, clearBin, if_pos h, bound]
  by_cases more : (o.state = .active ∨ o.state = .suspended) ∧ o.labelled + o.opened < o.ordered
  · rw [if_pos more, Option.filter_some_pos (o.refills_iff.mpr more)]
  · rw [if_neg more, Option.filter_some_neg (Bool.eq_false_iff.mpr (mt o.refills_iff.mp more))]

end

/-- Settles O55: the roles by Table 10-1, each refusal and effect by the framing of a whole command and the
command's own rule. -/
theorem binServiceAndBinCleared : Obligations.BinServiceAndBinCleared := by
  refine ⟨fun r => ⟨r.mayIssue_binService, r.mayIssue_binCleared⟩, fun p s bin service =>
    ⟨fun bs ready => exec_binService_length ready, fun ready => exec_binService_badField ready,
      fun ready => exec_binCleared_badField ready, fun b listed => ⟨fun ready => ?service, fun ready => ?cleared⟩⟩⟩
  case service =>
    exact ⟨exec_binService_off ready listed, exec_binService_on ready listed⟩
  case cleared =>
    refine ⟨exec_binCleared_state ready listed, fun labelled i o hb ho => ?_⟩
    rw [exec_binCleared_labelled ready listed labelled (State.boundOrder_eq_some hb ho),
      State.refill_eq hb (State.order_id ho)]
    rfl

end Sys2Proof.Machine

/-! R168 to R170, R173: the hold-cause set, and HOLD. -/

namespace Sys2Proof.Machine

/-! ## The flags of a hold-cause set -/

/-- The weight of a flag is counted exactly when the flag is set. -/
theorem ite_eq_mul_toNat (b : Bool) (w : Nat) : (if b then w else 0) = w * b.toNat := by
  cases b <;> simp

/-- Table 10-5: the flags are the sum of one weight for each cause that is set. -/
theorem Holds.flags_eq (h : Holds) : h.flags =
    (if h.guardCause then 1 else 0) + (if h.operator then 2 else 0) + (if h.phantom then 4 else 0) +
      (if h.stray then 8 else 0) + (if h.rejectFull then 16 else 0) + (if h.runoutFull then 32 else 0) := by
  simp only [Holds.flags, flagBits, ite_eq_mul_toNat]
  omega

/-- R169: of a change that sets OPERATOR alone, OPERATOR's flag is the one of the causes changed. -/
theorem Holds.changed_setOperator {h : Holds} (isClear : h.operator = false) :
    ({ h with operator := true } : Holds).changed h = 2 := by
  simp [Holds.changed, flagBits, isClear]

theorem Holds.setOperator_ne {h : Holds} (isClear : h.operator = false) : { h with operator := true } ≠ h := by
  intro same
  have isSet : h.operator = true := by rw [← same]
  exact Bool.false_ne_true (isClear.symm.trans isSet)

theorem Holds.setOperator_self {h : Holds} (isSet : h.operator = true) : { h with operator := true } = h := by
  rw [← isSet]

theorem Holds.isEmpty_setOperator (h : Holds) : ({ h with operator := true } : Holds).isEmpty = false := by
  simp [Holds.isEmpty]

/-! ## A change of the hold-cause set -/

/-- R169: the set as it stands is no change. -/
theorem State.setHolds_self {s : State} {h : Holds} (same : h = s.holds) : s.setHolds h = s :=
  if_pos same

/-- R169, R170: a change to a set that holds a cause raises HOLD_CHANGE, and the arbiter is not asked. -/
theorem State.setHolds_nonempty {s : State} {h : Holds} (differs : h ≠ s.holds) (holding : h.isEmpty = false) :
    s.setHolds h = State.raise { s with holds := h } .holdChange h.flags 0 0 (h.changed s.holds) := by
  rw [State.setHolds, if_neg differs, holding]
  rfl

/-! ## What a change of the causes and an answer leave alone -/

theorem State.withHolds_unchangedBut (s : State) (h : Holds) : s.unchangedBut [.holds] { s with holds := h } :=
  (State.Evolves.of_fields).frame

theorem State.setResult_unchangedBut (s : State) (p : PortId) (r : Result) :
    s.unchangedBut [.ports] (s.setResult p r) := by
  refine ⟨fun b other => ?_⟩
  cases b
  case ports => exact absurd (List.mem_singleton_self _) other
  all_goals rfl

/-! ## HOLD -/

/-- R184: HOLD is the supervisor's. -/
theorem Role.mayIssue_hold (r : Role) : r.mayIssue .hold = true ↔ r = .supervisor := by
  cases r <;> decide

/-- The state after HOLD from OPERATOR clear: the cause, its one event, and the answer. -/
def State.held (s : State) (p : PortId) : State :=
  (State.raise { s with holds.operator := true } .holdChange ({ s.holds with operator := true } : Holds).flags 0 0
    2).setResult p .ok

theorem State.held_unchangedBut (s : State) (p : PortId) : s.unchangedBut [.holds, .ports] (s.held p) := by
  have cause := s.withHolds_unchangedBut { s.holds with operator := true }
  have event := (State.raise_evolves { s with holds.operator := true } .holdChange
    ({ s.holds with operator := true } : Holds).flags 0 0 2).frame
  have raised : s.unchangedBut [.holds, .ports] _ := cause.comp event
  exact raised.comp (State.setResult_unchangedBut _ p .ok)

section
variable {p : PortId} {s : State} (ready : s.ready p .hold)
include ready

theorem exec_hold_length {bs : List Byte} (h : bs ≠ []) :
    exec (.hold p (.ends bs)) s = .next (s.setResult p .length) :=
  congrArg Host.Outcome.next (wholeStep_length .hold takeHold ready (mt List.eq_nil_of_length_eq_zero h))

theorem exec_hold_taken : exec (.hold p (.ends [])) s =
    .next ((s.setHolds { s.holds with operator := true }).setResult p .ok) :=
  congrArg Host.Outcome.next (wholeStep_taken .hold takeHold ready rfl)

/-- R173: OPERATOR set already: no change and no event. -/
theorem exec_hold_set (isSet : s.holds.operator = true) :
    exec (.hold p (.ends [])) s = .next (s.setResult p .ok) := by
  rw [exec_hold_taken ready, State.setHolds_self (Holds.setOperator_self isSet)]

/-- R173: OPERATOR clear: the cause, and one HOLD_CHANGE. -/
theorem exec_hold_clear (isClear : s.holds.operator = false) :
    exec (.hold p (.ends [])) s = .next (s.held p) := by
  rw [exec_hold_taken ready, State.setHolds_nonempty (Holds.setOperator_ne isClear) (Holds.isEmpty_setOperator _),
    Holds.changed_setOperator isClear, State.held]

end

/-- Settles O36: the length and both levels of OPERATOR by the framing of a whole command and the rule of a change
of the causes; HOLD leaves a set that is not empty, so the arbiter never acts and the frame is the causes and the
ports. -/
theorem holdSetsTheOperatorCause : Obligations.HoldSetsTheOperatorCause := by
  refine ⟨Role.mayIssue_hold, fun p s ready => ⟨fun bs => exec_hold_length ready, exec_hold_set ready, fun isClear =>
    ⟨s.held p, exec_hold_clear ready isClear, s.held_unchangedBut p, rfl, ?ports⟩⟩⟩
  case ports =>
    rw [State.held, Holds.flags_eq]
    rfl

end Sys2Proof.Machine

/-! R180: a frame is judged at its command byte, and the judgement stands to its end. -/

namespace Sys2Proof.Machine

/-! ## Unlisted codes and breaks -/

theorem exec_unknownCommand {code : Byte} (unlisted : listedCode code = false) (p : PortId) (st : FrameStep)
    (s : State) : exec (.unknownCommand p code st) s = .next (unlistedStep code p st s) :=
  congrArg Host.Outcome.next (if_neg (Bool.eq_false_iff.mp unlisted))

section
variable {p : PortId} {s : State} {code : Byte}

theorem unlistedStep_opens (hf : (s.port p).frame = none) :
    unlistedStep code p .opens s = s.setPhase p code (.refused .unknownCommand) := by
  simp only [unlistedStep, hf]

theorem unlistedStep_ends (hf : (s.port p).frame = none) (bs : List Byte) :
    unlistedStep code p (.ends bs) s = s.setResult p .unknownCommand := by
  simp only [unlistedStep, hf]

theorem unlistedStep_refused (hf : (s.port p).frame = some ⟨code, .refused .unknownCommand⟩) (bs : List Byte) :
    unlistedStep code p (.bytes bs) s = s ∧ unlistedStep code p (.ends bs) s = s.closeFrame p .unknownCommand := by
  simp [unlistedStep, hf]

theorem exec_frameBreak {ph : Phase} (hf : (s.port p).frame = some ⟨code, ph⟩) :
    exec (.frameBreak p) s = .next (s.closeFrame p ph.broken) := by
  show Host.Outcome.next (breakFrame p s) = _
  rw [breakFrame, hf]

end

/-! ## The command byte -/

section
variable {p : PortId} {s : State} (hf : (s.port p).frame = none)
include hf

/-- Log entry 7: a whole frame of a read is its command byte, and then the rest of it. -/
theorem readStep_ends_eq_opens_ends (c : Cmd) (answer : PortId → List Byte → State → Answer) (bs : List Byte) :
    readStep c answer p (.ends bs) s = readStep c answer p (.ends bs) (readStep c answer p .opens s) := by
  simp [readStep, hf, openRead]

/-- Log entry 7: a whole incremental frame is its command byte, and then the rest of it. -/
theorem groupedStep_ends_eq_opens_ends (g : Grouped) (bs : List Byte) :
    groupedStep g p (.ends bs) s = groupedStep g p (.ends bs) (groupedStep g p .opens s) := by
  simp [groupedStep, hf, openGrouped]

/-- A refused frame that is opened and ended leaves nothing but its result. -/
theorem State.closeFrame_refused (code : Byte) (r : Result) :
    (s.setPhase p code (.refused r)).closeFrame p r = s.setResult p r := by
  rw [State.closeFrame_setPhase, State.closeFrame_none hf]

variable {c : Cmd} (barred : (s.port p).role.mayIssue c = false)
include barred

theorem readStep_role (answer : PortId → List Byte → State → Answer) :
    readStep c answer p .opens s = s.setPhase p c.code (.refused .role) ∧
    ∀ bs, readStep c answer p (.ends bs) s = s.setResult p .role := by
  have opened : readStep c answer p .opens s = s.setPhase p c.code (.refused .role) := by
    rw [readStep_opens c answer hf, if_neg (Bool.eq_false_iff.mp barred)]
  refine ⟨opened, fun bs => ?_⟩
  rw [readStep_ends_eq_opens_ends hf, opened, (readStep_refused c answer (r := .role) (by simp) bs).2,
    State.closeFrame_refused hf]

theorem groupedStep_role {g : Grouped} (hg : g.cmd = c) :
    groupedStep g p .opens s = s.setPhase p c.code (.refused .role) ∧
    ∀ bs, groupedStep g p (.ends bs) s = s.setResult p .role := by
  subst hg
  have opened : groupedStep g p .opens s = s.setPhase p g.cmd.code (.refused .role) := by
    rw [groupedStep_opens g hf, if_neg (Bool.eq_false_iff.mp barred)]
  refine ⟨opened, fun bs => ?_⟩
  rw [groupedStep_ends_eq_opens_ends hf, opened, (groupedStep_refused g (r := .role) (by simp) bs).2,
    State.closeFrame_refused hf]

/-- R180 2: a command the port's role may not issue. -/
theorem exec_frame_role :
    exec (frameInstr c p .opens) s = .next (s.setPhase p c.code (.refused .role)) ∧
    ∀ bs, exec (frameInstr c p (.ends bs)) s = .next (s.setResult p .role) := by
  cases kind : c.row.kind with
  | whole n =>
    obtain ⟨take, hexec⟩ := exec_whole kind
    have opens : wholeStep c take p .opens s = s.setPhase p c.code (.refused .role) := by
      rw [wholeStep_opens c take hf, if_neg (Bool.eq_false_iff.mp barred)]
    exact ⟨by rw [hexec, opens], fun bs => by rw [hexec, wholeStep_role c take hf barred]⟩
  | incremental =>
    obtain ⟨g, hg, hexec⟩ := exec_incremental kind
    obtain ⟨opens, ends⟩ := groupedStep_role hf barred hg
    exact ⟨by rw [hexec, opens], fun bs => by rw [hexec, ends]⟩
  | read n =>
    obtain ⟨answer, hexec⟩ := exec_read kind
    obtain ⟨opens, ends⟩ := readStep_role hf barred answer
    exact ⟨by rw [hexec, opens], fun bs => by rw [hexec, ends]⟩

end

/-! R180 3: a command the port's role may issue goes on by its kind. -/

section
variable {c : Cmd} {p : PortId} {s : State} (ready : s.ready p c)
include ready

theorem exec_whole_opens {n : Nat} (kind : c.row.kind = .whole n) :
    exec (frameInstr c p .opens) s = .next (s.setPhase p c.code (.whole [])) := by
  obtain ⟨idle, allowed⟩ := ready
  obtain ⟨take, hexec⟩ := exec_whole kind
  rw [hexec, wholeStep_opens c take idle, if_pos allowed]

theorem exec_incremental_opens (kind : c.row.kind = .incremental) :
    ∃ i, exec (frameInstr c p .opens) s = .next (s.setPhase p c.code (.incremental i)) := by
  obtain ⟨idle, allowed⟩ := ready
  obtain ⟨g, rfl, hexec⟩ := exec_incremental kind
  exact ⟨_, by rw [hexec, groupedStep_opens g idle, if_pos allowed]⟩

theorem exec_read_opens {n : Nat} (kind : c.row.kind = .read n) :
    ∃ a, exec (frameInstr c p .opens) s =
      .next (s.setPhase p c.code (if n = 0 then .answered a else .reading [])) := by
  obtain ⟨idle, allowed⟩ := ready
  obtain ⟨answer, hexec⟩ := exec_read kind
  have params : cmdParams c = n := by rw [cmdParams, kind, kindParams]
  exact ⟨_, by rw [hexec, readStep_opens c answer idle, if_pos allowed, params]⟩

end

/-! ## A refused frame -/

/-- R180: of a refused frame the later bytes change nothing, and its end gives the result it was given. -/
theorem exec_frame_refused {c : Cmd} {p : PortId} {s : State} {r : Result}
    (hf : (s.port p).frame = some ⟨c.code, .refused r⟩) (bs : List Byte) :
    exec (frameInstr c p (.bytes bs)) s = .next s ∧
    exec (frameInstr c p (.ends bs)) s = .next (s.closeFrame p r) := by
  cases kind : c.row.kind with
  | whole n =>
    obtain ⟨take, hexec⟩ := exec_whole kind
    obtain ⟨bytes, ends⟩ := wholeStep_refused c take hf bs
    rw [hexec, hexec, bytes, ends]
    exact ⟨rfl, rfl⟩
  | incremental =>
    obtain ⟨g, rfl, hexec⟩ := exec_incremental kind
    obtain ⟨bytes, ends⟩ := groupedStep_refused g hf bs
    rw [hexec, hexec, bytes, ends]
    exact ⟨rfl, rfl⟩
  | read n =>
    obtain ⟨answer, hexec⟩ := exec_read kind
    obtain ⟨bytes, ends⟩ := readStep_refused c answer hf bs
    rw [hexec, hexec, bytes, ends]
    exact ⟨rfl, rfl⟩

theorem exec_unknownCommand_refused {p : PortId} {s : State} {code : Byte} (unlisted : listedCode code = false)
    (hf : (s.port p).frame = some ⟨code, .refused .unknownCommand⟩) (bs : List Byte) :
    exec (.unknownCommand p code (.bytes bs)) s = .next s ∧
    exec (.unknownCommand p code (.ends bs)) s = .next (s.closeFrame p .unknownCommand) := by
  obtain ⟨bytes, ends⟩ := unlistedStep_refused hf bs
  rw [exec_unknownCommand unlisted, exec_unknownCommand unlisted, bytes, ends]
  exact ⟨rfl, rfl⟩

/-! ## No whole command's own rule answers ROLE -/

/-- A rule that never answers ROLE: that answer is the command byte's alone. -/
def NeverRole (f : State → State × Result) : Prop := ∀ s, (f s).2 ≠ .role

theorem takeLane_neverRole {f : Lane → State → State × Result} (h : ∀ l, NeverRole (f l)) (ps : List Byte) :
    NeverRole (takeLane f ps) := by
  intro s
  unfold takeLane
  split
  · split
    · exact h _ s
    · nofun
  · nofun
  · nofun

theorem laneStart_neverRole (l : Lane) : NeverRole (laneStart l) := by
  intro s
  unfold laneStart
  split <;> nofun

theorem laneStop_neverRole (l : Lane) : NeverRole (laneStop l) := by
  intro s
  unfold laneStop
  split
  · nofun
  · split <;> nofun
  all_goals split <;> nofun

theorem laneHold_neverRole (l : Lane) : NeverRole (laneHold l) := by
  intro s
  unfold laneHold
  split <;> nofun

theorem laneRun_neverRole (l : Lane) : NeverRole (laneRun l) := by
  intro s
  unfold laneRun
  split <;> nofun

theorem toolReady_neverRole (l : Lane) : NeverRole (toolReady l) := by
  intro s
  unfold toolReady
  split <;> nofun

theorem laneRecipe_neverRole (l : Lane) (r : Recipe) : NeverRole (laneRecipe l r) := by
  intro s
  unfold laneRecipe
  split <;> nofun

theorem takeLaneRecipe_neverRole (ps : List Byte) : NeverRole (takeLaneRecipe ps) := by
  intro s
  unfold takeLaneRecipe
  split
  · split
    · split
      · exact laneRecipe_neverRole _ _ s
      · nofun
    · nofun
  · nofun

theorem takeGradeMode_neverRole (ps : List Byte) : NeverRole (takeGradeMode ps) := by
  intro s
  unfold takeGradeMode
  split
  · split <;> nofun
  · nofun

theorem sourceResult_ne_role (source : PlanSource) : sourceResult source ≠ .role := by
  cases source <;> nofun

/-- R83, Table 4-1: the lookup of a strip number refuses by the state of the strip. -/
theorem lookupStrip_ne_role {r : StripRec} {x : Result} (h : lookupStrip r = .refused x) : x ≠ .role := by
  unfold lookupStrip at h
  split at h
  case h_1 => cases h
  case h_6 =>
    obtain rfl := Lookup.refused.inj h
    cases r.plan with
    | none => nofun
    | some p => exact sourceResult_ne_role p.source
  all_goals
    cases h
    nofun

theorem State.lookup_ne_role {s : State} {n : StripNum} {x : Result} (h : s.lookup n = .refused x) : x ≠ .role := by
  unfold State.lookup at h
  split at h
  · exact lookupStrip_ne_role h
  · split at h <;> cases h
    · exact sourceResult_ne_role _
    · nofun

theorem examine_neverRole (source : PlanSource) (c : Grading.Command) : NeverRole (examine source c) := by
  intro s
  unfold examine
  split
  · nofun
  · split
    · nofun
    · split
      case h_1 r refused => exact State.lookup_ne_role refused
      case h_2 => split <;> nofun

theorem takeGrading_neverRole (source : PlanSource) (ps : List Byte) : NeverRole (takeGrading source ps) := by
  intro s
  unfold takeGrading
  split
  · exact examine_neverRole source _ s
  · nofun

theorem serviceOff_neverRole (b : BinId) : NeverRole (serviceOff b) := by
  intro s
  unfold serviceOff
  split <;> nofun

theorem serviceOn_neverRole (b : BinId) : NeverRole (serviceOn b) := by
  intro s
  unfold serviceOn
  split <;> nofun

theorem takeBinService_neverRole (ps : List Byte) : NeverRole (takeBinService ps) := by
  intro s
  unfold takeBinService
  split
  · split
    · split
      · exact serviceOff_neverRole _ s
      · split
        · exact serviceOn_neverRole _ s
        · nofun
    · nofun
  · nofun

theorem clearBin_neverRole (b : BinId) : NeverRole (clearBin b) := by
  intro s
  unfold clearBin
  split
  · split <;> nofun
  · nofun

theorem takeBinCleared_neverRole (ps : List Byte) : NeverRole (takeBinCleared ps) := by
  intro s
  unfold takeBinCleared
  split
  · split
    · exact clearBin_neverRole _ s
    · nofun
  · nofun

theorem putOrder_neverRole (o : Order) : NeverRole (putOrder o) := by
  intro s
  unfold putOrder
  split
  · nofun
  · split
    · nofun
    · split <;> nofun

theorem takeOrderPut_neverRole (ps : List Byte) : NeverRole (takeOrderPut ps) := by
  intro s
  unfold takeOrderPut
  split
  · exact putOrder_neverRole _ s
  · nofun

theorem onOrder_neverRole {f : Order → State → State × Result} (h : ∀ o, NeverRole (f o)) (i : OrderId) :
    NeverRole (onOrder f i) := by
  intro s
  unfold onOrder
  split
  · nofun
  · split
    · exact h _ s
    · nofun

theorem takeOrder_neverRole {f : Order → State → State × Result} (h : ∀ o, NeverRole (f o)) (ps : List Byte) :
    NeverRole (takeOrder f ps) := by
  intro s
  unfold takeOrder
  split
  · exact onOrder_neverRole h _ s
  · nofun

theorem suspendOrder_neverRole (o : Order) : NeverRole (suspendOrder o) := by
  intro s
  unfold suspendOrder
  split <;> nofun

theorem resumeOrder_neverRole (o : Order) : NeverRole (resumeOrder o) := by
  intro s
  unfold resumeOrder
  split <;> nofun

theorem addBundles_neverRole (n : Nat) (o : Order) : NeverRole (addBundles n o) := by
  intro s
  unfold addBundles
  split
  · nofun
  · split <;> nofun

theorem takeOrderAdd_neverRole (ps : List Byte) : NeverRole (takeOrderAdd ps) := by
  intro s
  unfold takeOrderAdd
  split
  · exact onOrder_neverRole (addBundles_neverRole _) _ s
  · nofun

theorem cancelOrder_neverRole (o : Order) : NeverRole (cancelOrder o) := by
  intro s
  unfold cancelOrder
  split
  case h_1 | h_2 | h_3 => split <;> nofun
  all_goals nofun

theorem retireOrder_neverRole (o : Order) : NeverRole (retireOrder o) := by
  intro s
  unfold retireOrder
  split <;> nofun

theorem setMarks_neverRole (m : Marks) : NeverRole (setMarks m) := by
  intro s
  unfold setMarks
  split
  · nofun
  · split <;> nofun

theorem takeMarksSet_neverRole (ps : List Byte) : NeverRole (takeMarksSet ps) := by
  intro s
  unfold takeMarksSet
  split
  · exact setMarks_neverRole _ s
  · nofun

theorem removeStrip_neverRole (n : StripNum) : NeverRole (removeStrip n) := by
  intro s
  unfold removeStrip
  split
  · nofun
  · split
    · nofun
    · split
      · nofun
      · split <;> nofun

theorem takeRemoveStrip_neverRole (ps : List Byte) : NeverRole (takeRemoveStrip ps) := by
  intro s
  unfold takeRemoveStrip
  split
  · exact removeStrip_neverRole _ s
  · nofun

theorem removeSpan_neverRole (start stop : Pos) : NeverRole (removeSpan start stop) := by
  intro s
  unfold removeSpan
  split
  · nofun
  · split <;> nofun

theorem takeRemoveSpan_neverRole (ps : List Byte) : NeverRole (takeRemoveSpan ps) := by
  intro s
  unfold takeRemoveSpan
  split
  · exact removeSpan_neverRole _ _ s
  · nofun

theorem removeLane_neverRole (l : Lane) : NeverRole (removeLane l) := by
  intro s
  unfold removeLane
  split
  · nofun
  · split <;> nofun

theorem takeLineClear_neverRole (ps : List Byte) : NeverRole (takeLineClear ps) := by
  intro s
  unfold takeLineClear
  split
  · nofun
  · split <;> nofun

theorem takeSampleSet_neverRole (ps : List Byte) : NeverRole (takeSampleSet ps) := by
  intro s
  unfold takeSampleSet
  split
  · split <;> nofun
  · nofun

/-- R184: of ROLE_SET's own refusals, ROLE_TAKEN is another code than ROLE. -/
theorem setRole_neverRole (p : PortId) (r : Role) : NeverRole (setRole p r) := by
  intro s
  unfold setRole
  split
  · nofun
  · split <;> nofun

theorem takeRoleSet_neverRole (ps : List Byte) : NeverRole (takeRoleSet ps) := by
  intro s
  unfold takeRoleSet
  split
  · split
    · exact setRole_neverRole _ _ s
    · nofun
    · nofun
  · nofun

/-- `exec_whole`, with what every whole command's rule has in common: it never answers ROLE. -/
theorem exec_whole_neverRole {c : Cmd} {n : Nat} (h : c.row.kind = .whole n) :
    ∃ take, (∀ ps, NeverRole (take ps)) ∧
      ∀ p st s, exec (frameInstr c p st) s = .next (wholeStep c take p st s) := by
  cases c with
  | roleSet => exact ⟨_, takeRoleSet_neverRole, fun _ _ _ => rfl⟩
  | marksSet => exact ⟨_, takeMarksSet_neverRole, fun _ _ _ => rfl⟩
  | hold => exact ⟨takeHold, fun _ _ => nofun, fun _ _ _ => rfl⟩
  | resume => exact ⟨takeResume, fun _ _ => nofun, fun _ _ _ => rfl⟩
  | lineClear => exact ⟨_, takeLineClear_neverRole, fun _ _ _ => rfl⟩
  | removeStrip => exact ⟨_, takeRemoveStrip_neverRole, fun _ _ _ => rfl⟩
  | removeSpan => exact ⟨_, takeRemoveSpan_neverRole, fun _ _ _ => rfl⟩
  | removeLane => exact ⟨_, takeLane_neverRole removeLane_neverRole, fun _ _ _ => rfl⟩
  | rejectCleared => exact ⟨takeRejectCleared, fun _ _ => nofun, fun _ _ _ => rfl⟩
  | runoutCleared => exact ⟨takeRunoutCleared, fun _ _ => nofun, fun _ _ _ => rfl⟩
  | binService => exact ⟨_, takeBinService_neverRole, fun _ _ _ => rfl⟩
  | laneStart => exact ⟨_, takeLane_neverRole laneStart_neverRole, fun _ _ _ => rfl⟩
  | laneStop => exact ⟨_, takeLane_neverRole laneStop_neverRole, fun _ _ _ => rfl⟩
  | laneHold => exact ⟨_, takeLane_neverRole laneHold_neverRole, fun _ _ _ => rfl⟩
  | laneRun => exact ⟨_, takeLane_neverRole laneRun_neverRole, fun _ _ _ => rfl⟩
  | laneRecipe => exact ⟨_, takeLaneRecipe_neverRole, fun _ _ _ => rfl⟩
  | toolReady => exact ⟨_, takeLane_neverRole toolReady_neverRole, fun _ _ _ => rfl⟩
  | mapCommit => exact ⟨takeMapCommit, fun _ _ => nofun, fun _ _ _ => rfl⟩
  | gradeMode => exact ⟨_, takeGradeMode_neverRole, fun _ _ _ => rfl⟩
  | verdict => exact ⟨_, takeGrading_neverRole .scanner, fun _ _ _ => rfl⟩
  | gradeEntry => exact ⟨_, takeGrading_neverRole .manual, fun _ _ _ => rfl⟩
  | orderPut => exact ⟨_, takeOrderPut_neverRole, fun _ _ _ => rfl⟩
  | orderSuspend => exact ⟨_, takeOrder_neverRole suspendOrder_neverRole, fun _ _ _ => rfl⟩
  | orderResume => exact ⟨_, takeOrder_neverRole resumeOrder_neverRole, fun _ _ _ => rfl⟩
  | orderAdd => exact ⟨_, takeOrderAdd_neverRole, fun _ _ _ => rfl⟩
  | orderCancel => exact ⟨_, takeOrder_neverRole cancelOrder_neverRole, fun _ _ _ => rfl⟩
  | orderRetire => exact ⟨_, takeOrder_neverRole retireOrder_neverRole, fun _ _ _ => rfl⟩
  | binCleared => exact ⟨_, takeBinCleared_neverRole, fun _ _ _ => rfl⟩
  | sampleSet => exact ⟨_, takeSampleSet_neverRole, fun _ _ _ => rfl⟩
  | limitsSet | laneConfig | channelSet | mapWrite => cases h
  | status | readEvents | takeLabel | traceRead | faultRead | stripRead | laneRead | mapRead | channelRead
  | orderRead | binRead => cases h

theorem takeWhole_result_ne_role {c : Cmd} {take : List Byte → State → State × Result}
    (h : ∀ ps, NeverRole (take ps)) (p : PortId) (ps : List Byte) (s : State) :
    ((takeWhole c take p ps s).port p).result ≠ .role := by
  unfold takeWhole
  split
  · simpa using h ps s
  · simp

/-! ## No read's answer is ROLE -/

/-- An answer that is never ROLE, at any port, of any parameters, in any state. -/
def AnswersNoRole (answer : PortId → List Byte → State → Answer) : Prop := ∀ p ps s, (answer p ps s).result ≠ .role

theorem answerReadEvents_noRole : AnswersNoRole answerReadEvents := by
  intro p ps s
  unfold answerReadEvents
  split
  · split <;> nofun
  · nofun

theorem answerTakeLabel_noRole : AnswersNoRole answerTakeLabel := by
  intro p ps s
  unfold answerTakeLabel
  split <;> nofun

theorem answerTraceRead_noRole : AnswersNoRole answerTraceRead := by
  intro p ps s
  unfold answerTraceRead
  split <;> nofun

theorem answerFaultRead_noRole : AnswersNoRole answerFaultRead := by
  intro p ps s
  unfold answerFaultRead
  split <;> nofun

theorem State.stripAnswer_ne_role (s : State) (n : StripNum) : (s.stripAnswer n).result ≠ .role := by
  unfold State.stripAnswer
  split
  · nofun
  · split
    · nofun
    · split <;> nofun

theorem answerStripRead_noRole : AnswersNoRole answerStripRead := by
  intro p ps s
  unfold answerStripRead
  split
  · exact s.stripAnswer_ne_role _
  · nofun

theorem answerLaneRead_noRole : AnswersNoRole answerLaneRead := by
  intro p ps s
  unfold answerLaneRead
  split
  · split <;> nofun
  · nofun

theorem State.mapAnswer_ne_role (s : State) (e : Option Edition) (profile face n : Nat) :
    (s.mapAnswer e profile face n).result ≠ .role := by
  unfold State.mapAnswer
  split
  · split <;> nofun
  · nofun

theorem answerMapRead_noRole : AnswersNoRole answerMapRead := by
  intro p ps s
  unfold answerMapRead
  split
  · exact s.mapAnswer_ne_role _ _ _ _
  · nofun

theorem State.orderAnswer_ne_role (s : State) (i : OrderId) : (s.orderAnswer i).result ≠ .role := by
  unfold State.orderAnswer
  split
  · nofun
  · split <;> nofun

theorem answerOrderRead_noRole : AnswersNoRole answerOrderRead := by
  intro p ps s
  unfold answerOrderRead
  split
  · exact s.orderAnswer_ne_role _
  · nofun

theorem State.binAnswer_ne_role (s : State) (b : Byte) : (s.binAnswer b).result ≠ .role := by
  unfold State.binAnswer
  split
  · nofun
  · split
    · nofun
    · split <;> nofun

theorem answerBinRead_noRole : AnswersNoRole answerBinRead := by
  intro p ps s
  unfold answerBinRead
  split
  · exact s.binAnswer_ne_role _
  · nofun

/-- `exec_read`, with what every read's answer has in common: it is never ROLE. -/
theorem exec_read_noRole {c : Cmd} {n : Nat} (h : c.row.kind = .read n) :
    ∃ answer, AnswersNoRole answer ∧
      ∀ p st s, exec (frameInstr c p st) s = .next (readStep c answer p st s) := by
  cases c with
  | status => exact ⟨answerStatus, fun _ _ _ => nofun, fun _ _ _ => rfl⟩
  | readEvents => exact ⟨_, answerReadEvents_noRole, fun _ _ _ => rfl⟩
  | takeLabel => exact ⟨_, answerTakeLabel_noRole, fun _ _ _ => rfl⟩
  | traceRead => exact ⟨_, answerTraceRead_noRole, fun _ _ _ => rfl⟩
  | faultRead => exact ⟨_, answerFaultRead_noRole, fun _ _ _ => rfl⟩
  | stripRead => exact ⟨_, answerStripRead_noRole, fun _ _ _ => rfl⟩
  | laneRead => exact ⟨_, answerLaneRead_noRole, fun _ _ _ => rfl⟩
  | mapRead => exact ⟨_, answerMapRead_noRole, fun _ _ _ => rfl⟩
  | channelRead => exact ⟨answerChannelRead, fun _ _ _ => nofun, fun _ _ _ => rfl⟩
  | orderRead => exact ⟨_, answerOrderRead_noRole, fun _ _ _ => rfl⟩
  | binRead => exact ⟨_, answerBinRead_noRole, fun _ _ _ => rfl⟩
  | limitsSet | laneConfig | channelSet | mapWrite => cases h
  | roleSet | marksSet | hold | resume | lineClear | removeStrip | removeSpan | removeLane | rejectCleared
  | runoutCleared | binService | laneStart | laneStop | laneHold | laneRun | laneRecipe | toolReady | mapCommit
  | gradeMode | verdict | gradeEntry | orderPut | orderSuspend | orderResume | orderAdd | orderCancel | orderRetire
  | binCleared | sampleSet => cases h

/-! ## A read in progress, through its bytes and releases -/

/-- How far a read has come that was free to go on: its parameters, or an answer other than ROLE. -/
def Phase.readsOn : Phase → Prop
  | .reading _ => True
  | .answered a => a.result ≠ .role
  | .refused _ | .whole _ | .incremental _ => False

/-- The frame in progress at a port is a read of this code that was free to go on. -/
def State.readsOn (s : State) (p : PortId) (code : Byte) : Prop :=
  ∃ ph, (s.port p).frame = some ⟨code, ph⟩ ∧ ph.readsOn

theorem State.readsOn_congr {s t : State} {p : PortId} {code : Byte}
    (same : (t.port p).frame = (s.port p).frame) (h : s.readsOn p code) : t.readsOn p code := by
  obtain ⟨ph, hf, on⟩ := h
  exact ⟨ph, same.trans hf, on⟩

theorem State.readsOn_setPhase (s : State) (p : PortId) (code : Byte) {ph : Phase} (on : ph.readsOn) :
    (s.setPhase p code ph).readsOn p code := ⟨ph, by simp, on⟩

/-- R189: the note of a lost event is made in what a read hands over, and not in its result. -/
theorem Frame.noteLoss_readsOn (code : Byte) {ph : Phase} (on : ph.readsOn) :
    ∃ ph', Frame.noteLoss ⟨code, ph⟩ = ⟨code, ph'⟩ ∧ ph'.readsOn := by
  cases ph with
  | reading buf => exact ⟨_, rfl, on⟩
  | answered a =>
    obtain ⟨result, response, shifted, hand⟩ := a
    cases hand <;> exact ⟨_, rfl, on⟩
  | refused r => exact on.elim
  | whole buf => exact on.elim
  | incremental i => exact on.elim

theorem State.readsOn_raiseAt {s : State} {p : PortId} {code : Byte} (h : s.readsOn p code) (q : PortId)
    (kind : EventKind) (detail : Nat) (n : StripNum) (k subject : Nat) :
    (s.raiseAt q kind detail n k subject).readsOn p code := by
  obtain ⟨ph, hf, on⟩ := h
  rw [State.readsOn, State.raiseAt, State.port_modPort]
  split
  case isTrue here =>
    subst here
    rw [Port.enqueue]
    split
    · exact ⟨ph, hf, on⟩
    · obtain ⟨ph', noted, on'⟩ := Frame.noteLoss_readsOn code on
      exact ⟨ph', by rw [← noted]; simp [hf], on'⟩
  case isFalse => exact ⟨ph, hf, on⟩

theorem State.readsOn_raise {s : State} {p : PortId} {code : Byte} (h : s.readsOn p code)
    (kind : EventKind) (detail : Nat) (n : StripNum) (k subject : Nat) :
    (s.raise kind detail n k subject).readsOn p code := State.readsOn_raiseAt h ..

theorem State.readsOn_composeLabel {s : State} {p : PortId} {code : Byte} (h : s.readsOn p code) (b : BinId)
    (rest : List BinId) : (s.composeLabel b rest).readsOn p code := by
  unfold State.composeLabel
  refine State.readsOn_raise ?_ ..
  split
  · exact State.readsOn_raise h ..
  · exact State.readsOn_raise h ..

theorem State.readsOn_composeWhile {p : PortId} {code : Byte} (fuel : Nat) {s : State} (h : s.readsOn p code) :
    (s.composeWhile fuel).readsOn p code := by
  induction fuel generalizing s with
  | zero => exact h
  | succ fuel ih =>
    unfold State.composeWhile
    split
    · exact h
    · split
      · exact ih (State.readsOn_composeLabel h ..)
      · exact h

/-- R183: what a read hands over is released, and the read goes on. -/
theorem State.readsOn_releaseHand {s : State} {p : PortId} {code : Byte} (h : s.readsOn p code) (q : PortId)
    (hand : Handover) : (s.releaseHand q hand).readsOn p code := by
  have frameKept (f : Port → Port) (keeps : ∀ x, (f x).frame = x.frame) : (s.modPort q f).readsOn p code := by
    refine State.readsOn_congr ?_ h
    rw [State.port_modPort]
    split
    case isTrue here => rw [here, keeps]
    case isFalse => rfl
  cases hand with
  | nothing => exact h
  | flag lost => exact frameKept _ fun _ => rfl
  | events discarded =>
    rw [State.releaseHand, State.releaseEvent]
    split
    · exact h
    · exact frameKept _ fun _ => rfl
  | label slot serial =>
    rw [State.releaseHand, State.releaseLabel]
    split
    · exact State.readsOn_composeWhile 2 (State.readsOn_congr (s := s) (by rfl) h)
    · exact h
  | trace =>
    rw [State.releaseHand, State.releaseTrace]
    split
    · exact State.readsOn_congr (s := s) (by rfl) h
    · exact h
  | fault => exact State.readsOn_congr (s := s) (by rfl) h

section
variable {c : Cmd} {answer : PortId → List Byte → State → Answer} {p : PortId}

theorem State.readsOn_shiftByte {s : State} {a : Answer} (h : s.readsOn p c.code) (free : a.result ≠ .role) :
    (s.shiftByte p c.code a).readsOn p c.code := by
  have out : (s.setShifted p c.code a (a.shifted + 1)).readsOn p c.code := s.readsOn_setPhase p c.code free
  unfold State.shiftByte
  dsimp only
  split
  · exact State.readsOn_releaseHand out ..
  · split
    · exact out
    · exact h

theorem State.readsOn_readByte (hanswer : AnswersNoRole answer) {s : State} (h : s.readsOn p c.code) (b : Byte) :
    (readByte c answer p s b).readsOn p c.code := by
  obtain ⟨ph, hf, on⟩ := h
  rw [readByte, State.phaseOf_some hf]
  cases ph with
  | reading buf =>
    refine s.readsOn_setPhase p c.code ?_
    split
    · exact hanswer p (buf ++ [b]) s
    · trivial
  | answered a => exact State.readsOn_shiftByte ⟨_, hf, on⟩ on
  | refused r => exact on.elim
  | whole buf => exact on.elim
  | incremental i => exact on.elim

theorem State.readsOn_readBytes (hanswer : AnswersNoRole answer) (bs : List Byte) {s : State}
    (h : s.readsOn p c.code) : (readBytes c answer p bs s).readsOn p c.code := by
  induction bs generalizing s with
  | nil => exact h
  | cons b bs ih => exact ih (State.readsOn_readByte hanswer h b)

theorem readEnd_result_ne_role {s : State} (h : s.readsOn p c.code) :
    ((readEnd c p s).port p).result ≠ .role := by
  obtain ⟨ph, hf, on⟩ := h
  rw [readEnd, State.phaseOf_some hf]
  cases ph with
  | reading buf => simp
  | answered a =>
    rw [State.port_closeFrame, if_pos rfl]
    exact on
  | refused r => exact on.elim
  | whole buf => exact on.elim
  | incremental i => exact on.elim

end

/-! ## An incremental frame in progress -/

section
variable (g : Grouped) {p : PortId}

/-- A byte leaves an incremental frame in progress an incremental frame in progress, whatever its group does to
the ports. -/
theorem groupedByte_incremental {s : State} {i : Incremental}
    (hf : (s.port p).frame = some ⟨g.cmd.code, .incremental i⟩) (b : Byte) :
    ∃ j, ((groupedByte g p s b).port p).frame = some ⟨g.cmd.code, .incremental j⟩ := by
  rw [groupedByte, State.phaseOf_some hf]
  dsimp only
  split
  · exact ⟨_, by rw [State.port_setPhase, if_pos rfl]⟩
  · split <;> exact ⟨_, by rw [State.port_setPhase, if_pos rfl]⟩

theorem groupedBytes_incremental (bs : List Byte) {s : State} {i : Incremental}
    (hf : (s.port p).frame = some ⟨g.cmd.code, .incremental i⟩) :
    ∃ j, ((groupedBytes g p bs s).port p).frame = some ⟨g.cmd.code, .incremental j⟩ := by
  induction bs generalizing s i with
  | nil => exact ⟨i, hf⟩
  | cons b bs ih =>
    obtain ⟨j, hj⟩ := groupedByte_incremental g hf b
    exact ih hj

theorem Incremental.result_ne_role (i : Incremental) : i.result ≠ .role := by
  unfold Incremental.result
  split
  · nofun
  · split
    · nofun
    · split <;> nofun

end

/-! ## The end of a frame that was free to go on -/

section
variable {c : Cmd} {p : PortId} {s t : State} {bs : List Byte}
  (ended : exec (frameInstr c p (.ends bs)) s = .next t)
include ended

theorem exec_whole_ends_ne_role {n : Nat} (kind : c.row.kind = .whole n) {buf : List Byte}
    (hf : (s.port p).frame = some ⟨c.code, .whole buf⟩) : (t.port p).result ≠ .role := by
  obtain ⟨take, never, hexec⟩ := exec_whole_neverRole kind
  rw [hexec, wholeStep_ends c take hf] at ended
  obtain rfl := Host.Outcome.next.inj ended
  exact takeWhole_result_ne_role never p (buf ++ bs) _

theorem exec_incremental_ends_ne_role (kind : c.row.kind = .incremental) {i : Incremental}
    (hf : (s.port p).frame = some ⟨c.code, .incremental i⟩) : (t.port p).result ≠ .role := by
  obtain ⟨g, rfl, hexec⟩ := exec_incremental kind
  obtain ⟨j, hj⟩ := groupedBytes_incremental g bs hf
  rw [hexec] at ended
  obtain rfl := Host.Outcome.next.inj ended
  simp only [groupedStep, hf, groupedEnd, State.phaseOf_some hj]
  simpa using j.result_ne_role

theorem exec_read_ends_ne_role {n : Nat} (kind : c.row.kind = .read n) (on : s.readsOn p c.code) :
    (t.port p).result ≠ .role := by
  obtain ⟨answer, noRole, hexec⟩ := exec_read_noRole kind
  have ⟨_, hf, _⟩ := on
  rw [hexec] at ended
  obtain rfl := Host.Outcome.next.inj ended
  simp only [readStep, hf]
  exact readEnd_result_ne_role (State.readsOn_readBytes noRole bs on)

end

/-- Settles O6: the judgement by code and by role at the command byte; a refused frame's later bytes and end by kind
of command; and no whole command's rule, no group and no read answers ROLE, so a frame free to go on never ends in
it. -/
theorem framesAreJudgedAtTheirCommandByte : Obligations.FramesAreJudgedAtTheirCommandByte := by
  refine ⟨fun p s code idle unlisted => ⟨?unknownOpens, fun bs => ?unknownEnds⟩,
    fun p s c idle barred => exec_frame_role idle barred, fun p s c ready => ?goesOn,
    fun p s code r hf => ⟨exec_frameBreak hf, fun bs => ⟨fun c hc => ?refused, fun unlisted hr => ?unknown⟩⟩,
    fun p s t c ph bs hf free ended => ?ends⟩
  case unknownOpens => rw [exec_unknownCommand unlisted, unlistedStep_opens idle]
  case unknownEnds => rw [exec_unknownCommand unlisted, unlistedStep_ends idle]
  case goesOn =>
    cases kind : c.row.kind with
    | whole n => exact ⟨_, exec_whole_opens ready kind, rfl⟩
    | incremental =>
      obtain ⟨i, opened⟩ := exec_incremental_opens ready kind
      exact ⟨_, opened, i, rfl⟩
    | read n =>
      obtain ⟨a, opened⟩ := exec_read_opens ready kind
      refine ⟨_, opened, ?_⟩
      by_cases bare : n = 0
      · simp only [if_pos bare]
        exact ⟨a, rfl⟩
      · simp only [if_neg bare]
  case refused =>
    subst hc
    exact exec_frame_refused hf bs
  case unknown =>
    subst hr
    exact exec_unknownCommand_refused unlisted hf bs
  case ends =>
    cases kind : c.row.kind with
    | whole n =>
      rw [kind] at free
      obtain ⟨buf, rfl⟩ := free
      exact exec_whole_ends_ne_role ended kind hf
    | incremental =>
      rw [kind] at free
      obtain ⟨i, rfl⟩ := free
      exact exec_incremental_ends_ne_role ended kind hf
    | read n =>
      rw [kind] at free
      refine exec_read_ends_ne_role ended kind ⟨ph, hf, ?_⟩
      obtain ⟨buf, rfl⟩ | ⟨a, rfl, other⟩ := free
      · trivial
      · exact other

end Sys2Proof.Machine

/-! What every command and every step keeps: the framing of the ports, the passing of time and the dispatch are gone
through once, and an invariant is left with the rules of the commands and the events. -/

namespace Sys2Proof.Machine

/-! ## The rule of a command, by its name -/

/-- R181: the own rule of a whole command; no other command has one. -/
def Cmd.rule : Cmd → List Byte → State → State × Result
  | .roleSet => takeRoleSet
  | .marksSet => takeMarksSet
  | .hold => takeHold
  | .resume => takeResume
  | .lineClear => takeLineClear
  | .removeStrip => takeRemoveStrip
  | .removeSpan => takeRemoveSpan
  | .removeLane => takeLane removeLane
  | .rejectCleared => takeRejectCleared
  | .runoutCleared => takeRunoutCleared
  | .binService => takeBinService
  | .laneStart => takeLane laneStart
  | .laneStop => takeLane laneStop
  | .laneHold => takeLane laneHold
  | .laneRun => takeLane laneRun
  | .laneRecipe => takeLaneRecipe
  | .toolReady => takeLane toolReady
  | .mapCommit => takeMapCommit
  | .gradeMode => takeGradeMode
  | .verdict => takeGrading .scanner
  | .gradeEntry => takeGrading .manual
  | .orderPut => takeOrderPut
  | .orderSuspend => takeOrder suspendOrder
  | .orderResume => takeOrder resumeOrder
  | .orderAdd => takeOrderAdd
  | .orderCancel => takeOrder cancelOrder
  | .orderRetire => takeOrder retireOrder
  | .binCleared => takeBinCleared
  | .sampleSet => takeSampleSet
  | _ => fun _ s => (s, .ok)

theorem exec_whole_rule {c : Cmd} {n : Nat} (kind : c.row.kind = .whole n) (p : PortId) (st : FrameStep) (s : State) :
    exec (frameInstr c p st) s = .next (wholeStep c (Cmd.rule c) p st s) := by
  cases c <;> first | rfl | cases kind

/-- R180, R182: an incremental command is LIMITS_SET, LANE_CONFIG, CHANNEL_SET or MAP_WRITE, by its groups. -/
theorem exec_incremental_groups {c : Cmd} (kind : c.row.kind = .incremental) :
    ∃ g ∈ [limitsGrouped, laneConfigGrouped, channelSetGrouped, mapGrouped],
      ∀ p st s, exec (frameInstr c p st) s = .next (groupedStep g p st s) := by
  cases c
  case limitsSet => exact ⟨limitsGrouped, by simp, fun _ _ _ => rfl⟩
  case laneConfig => exact ⟨laneConfigGrouped, by simp, fun _ _ _ => rfl⟩
  case channelSet => exact ⟨channelSetGrouped, by simp, fun _ _ _ => rfl⟩
  case mapWrite => exact ⟨mapGrouped, by simp, fun _ _ _ => rfl⟩
  all_goals cases kind

/-! ## Events due by time, and events due at a belt position -/

/-- R32, R96: the events that come due by time. -/
def Due.byTime : Due → Bool
  | .delay _ | .idle _ | .releaseEnd _ | .outfeedEnd _ | .pulseEnd _ | .recoveryEnd _ => true
  | .deadline _ | .trim _ | .sort _ _ | .runout _ _ | .fire _ | .transit | .gap | .cutOff | .window _ _ _ => false

theorem State.byTime_of_mem_dueHere {s : State} {d : Due} (h : d ∈ s.dueHere) : d.byTime = false := by
  simp only [State.dueHere, State.dueStrips, State.duePieces, State.dueFires, State.dueWindows, State.dueOthers,
    List.mem_append, List.mem_map, List.mem_flatMap] at h
  have single : ∀ {c : Prop} [Decidable c] {x : Due}, d ∈ (if c then [x] else []) → d = x := by
    intro c _ x hd
    split at hd
    · exact List.mem_singleton.mp hd
    · cases hd
  rcases h with (((((⟨_, _, rfl⟩ | ⟨_, _, rfl⟩) | (⟨_, _, rfl⟩ | ⟨_, _, rfl⟩)) | ⟨_, _, rfl⟩) | ⟨_, _, _, _, rfl⟩) |
    ((hd | hd) | hd)) <;> first | rfl | (cases single hd; rfl)

theorem State.mem_dueNow_of_byTime {s : State} {d : Due} (h : d ∈ s.dueAll) (time : d.byTime = true) :
    d ∈ s.dueNow := by
  rcases List.mem_append.mp h with here | now
  · rw [State.byTime_of_mem_dueHere here] at time
    cases time
  · exact now

/-- What every due event keeps, the settling of a belt position keeps. -/
theorem State.settleWhile_keeps {P : State → Prop} (due : ∀ s d, d ∈ s.dueAll → P s → P (s.takeDue d))
    (choice : ∀ s : State, P s → P { s with choices := s.choices + 1 }) (fuel : Nat) (s : State) (h : P s) :
    P (s.settleWhile fuel) := by
  induction fuel generalizing s with
  | zero => exact h
  | succ fuel ih =>
    unfold State.settleWhile
    split
    · exact h
    · rename_i d ds here
      have all : s.dueAll = d :: (ds ++ s.dueNow) := by rw [State.dueAll, here, List.cons_append]
      refine ih _ ?_
      unfold State.takeOne
      split
      · exact due s d (all ▸ List.mem_cons_self) h
      · refine due _ _ ?_ (choice s h)
        rw [show State.dueAll { s with choices := s.choices + 1 } = s.dueAll from rfl, all]
        cases picked : (d :: ds)[Config.duePick s.choices % (ds.length + 1)]? with
        | none => exact List.mem_cons_self
        | some x => exact List.mem_append_left s.dueNow (List.mem_of_getElem? picked)

/-! ## What the meanings keep, every step keeps -/

/-- What is to be shown of an invariant: that a frame's bookkeeping, each command's own rule, each group, each
release, each event and the passing of time keep it. -/
structure Kept (P : State → Prop) : Prop where
  port : ∀ (s : State) (p : PortId) (r : Result) (f : Option Frame), P s →
    P (s.modPort p fun q => { q with result := r, frame := f })
  rule : ∀ (c : Cmd) (ps : List Byte) (s : State), P s → P (Cmd.rule c ps s).1
  group : ∀ g ∈ [limitsGrouped, laneConfigGrouped, channelSetGrouped, mapGrouped],
    ∀ (s : State) (i : Incremental) (bs : List Byte), P s → P (g.apply i bs s).1
  hand : ∀ (s : State) (p : PortId) (h : Handover), P s → P (s.releaseHand p h)
  due : ∀ (s : State) (d : Due), (d.byTime = true → d ∈ s.dueNow) → P s → P (s.takeDue d)
  choice : ∀ s : State, P s → P { s with choices := s.choices + 1 }
  tick : ∀ (s : State) (us : Nat), P s → P (s.countDown us)
  powerUp : ∀ (s : State) (levels : InputLevels), P s → P (s.powerUp levels)
  blankReadyActive : ∀ (s : State) (l : Lane), P s → P (s.blankReadyActive l)
  blankReadyInactive : ∀ (s : State) (l : Lane), P s → P (s.blankReadyInactive l)
  exitEye : ∀ (s : State) (l : Lane), P s → P (s.exitEye l)
  leadEdge : ∀ s : State, P s → P s.leadEdge
  trailEdge : ∀ s : State, P s → P s.trailEdge
  payBacklash : ∀ s : State, P s → P { s with track.backlash := s.track.backlash - 1 }
  advance : ∀ s : State, P s → P s.advance
  reverse : ∀ s : State, P s → P s.reverse
  dropPulse : ∀ (s : State) (b : GateId), P s → P (s.dropPulse b)
  openGuard : ∀ s : State, P s → P s.openGuard
  closeGuard : ∀ s : State, P s → P { s with guardOpen := false }
  beltRun : ∀ (s : State) (active : Bool), P s → P { s with beltRun := active }

section
variable {P : State → Prop} (k : Kept P)
include k

theorem Kept.dueAll (s : State) (d : Due) (h : d ∈ s.dueAll) : P s → P (s.takeDue d) :=
  k.due s d (State.mem_dueNow_of_byTime h)

theorem Kept.setPhase (s : State) (p : PortId) (code : Byte) (ph : Phase) (h : P s) : P (s.setPhase p code ph) := by
  have same : s.setPhase p code ph =
      s.modPort p fun q => { q with result := (s.port p).result, frame := some ⟨code, ph⟩ } :=
    s.modPort_congr p rfl
  exact same ▸ k.port s p _ _ h

theorem Kept.frame (c : Cmd) (p : PortId) (st : FrameStep) {s t : State} (h : P s)
    (taken : exec (frameInstr c p st) s = .next t) : P t := by
  cases kind : c.row.kind with
  | whole n =>
    rw [exec_whole_rule kind] at taken
    exact Host.Outcome.next.inj taken ▸ wholeStep_keeps c _ P k.port (fun u ps => k.rule c ps u) st h
  | incremental =>
    obtain ⟨g, listed, hexec⟩ := exec_incremental_groups kind
    rw [hexec] at taken
    exact Host.Outcome.next.inj taken ▸ groupedStep_keeps g P k.port (k.group g listed) st h
  | read n =>
    obtain ⟨answer, hexec⟩ := exec_read kind
    rw [hexec] at taken
    exact Host.Outcome.next.inj taken ▸ readStep_keeps c answer P k.port k.hand st h

theorem Kept.groupStep {g : Grouped} (listed : g ∈ [limitsGrouped, laneConfigGrouped, channelSetGrouped, mapGrouped])
    (p : PortId) (bs : List Byte) {s : State} (h : P s) : P (groupStep g p bs s) :=
  groupStep_keeps g P k.setPhase (k.group g listed) bs h

theorem Kept.release (isMine : Handover → Bool) (p : PortId) {s : State} (h : P s) : P (releaseStep isMine p s) :=
  releaseStep_keeps isMine P k.setPhase k.hand h

theorem Kept.breakFrame (p : PortId) {s : State} (h : P s) : P (breakFrame p s) := by
  unfold Machine.breakFrame
  split
  · have same : s.setResult p .broken =
        s.modPort p fun q => { q with result := .broken, frame := (s.port p).frame } := s.modPort_congr p rfl
    exact same ▸ k.port s p _ _ h
  · exact k.port s p _ _ h

theorem Kept.unlistedStep (code : Byte) (p : PortId) (st : FrameStep) {s : State} (h : P s) :
    P (unlistedStep code p st s) := by
  unfold Machine.unlistedStep
  split
  · exact k.setPhase s p _ _ h
  · exact k.setPhase s p _ _ h
  · have same : s.setResult p .unknownCommand =
        s.modPort p fun q => { q with result := .unknownCommand, frame := (s.port p).frame } := s.modPort_congr p rfl
    exact same ▸ k.port s p _ _ h
  · exact h
  · exact h
  · split
    · exact k.port s p _ _ h
    · exact h

theorem Kept.settleWhile (fuel : Nat) (s : State) (h : P s) : P (s.settleWhile fuel) :=
  State.settleWhile_keeps k.dueAll k.choice fuel s h

theorem Kept.forward (s : State) (h : P s) : P s.forward := by
  unfold State.forward
  split
  · exact k.payBacklash s h
  · exact k.advance _ (k.settleWhile _ s h)

theorem Kept.timerRunsOut (s : State) (timer : Option Nat) (d : Due) (h : P s) : P (s.timerRunsOut timer d) :=
  State.timerRunsOut_keeps k.dueAll k.choice k.tick s timer d h

theorem Kept.elapseTo (s : State) (us : Nat) (d : Due) (h : P s) : P (s.elapseTo us d) :=
  State.elapseTo_keeps k.dueAll k.choice k.tick s us d h

/-- An event of belt position, commanded by its own row of the table. -/
theorem Kept.arrival {d : Due} (here : d.byTime = false) {s : State} (h : P s) : P (s.takeDue d) :=
  k.due s d (fun time => absurd (here.symm.trans time) Bool.false_ne_true) h

/-- Every command keeps what the meanings keep. -/
theorem Kept.exec {i : Instr} {s t : State} (h : P s) (taken : exec i s = .next t) : P t := by
  cases i with
  | powerOn levels => exact Host.Outcome.next.inj taken ▸ k.powerUp s levels h
  | frameBreak p => exact Host.Outcome.next.inj taken ▸ k.breakFrame p h
  | unknownCommand p code st =>
    refine Host.Outcome.next.inj taken ▸ ?_
    split
    · exact h
    · exact k.unlistedStep code p st h
  | status p st => exact k.frame .status p st h taken
  | overflowFlagRelease p => exact Host.Outcome.next.inj taken ▸ k.release _ p h
  | readEvents p st => exact k.frame .readEvents p st h taken
  | eventRecordRelease p => exact Host.Outcome.next.inj taken ▸ k.release _ p h
  | roleSet p st => exact k.frame .roleSet p st h taken
  | limitsSet p st => exact k.frame .limitsSet p st h taken
  | limitsSetGroup p ident value => exact Host.Outcome.next.inj taken ▸ k.groupStep (by simp) p _ h
  | marksSet p st => exact k.frame .marksSet p st h taken
  | hold p st => exact k.frame .hold p st h taken
  | resume p st => exact k.frame .resume p st h taken
  | lineClear p st => exact k.frame .lineClear p st h taken
  | removeStrip p st => exact k.frame .removeStrip p st h taken
  | removeSpan p st => exact k.frame .removeSpan p st h taken
  | removeLane p st => exact k.frame .removeLane p st h taken
  | rejectCleared p st => exact k.frame .rejectCleared p st h taken
  | runoutCleared p st => exact k.frame .runoutCleared p st h taken
  | binService p st => exact k.frame .binService p st h taken
  | laneStart p st => exact k.frame .laneStart p st h taken
  | laneStop p st => exact k.frame .laneStop p st h taken
  | laneHold p st => exact k.frame .laneHold p st h taken
  | laneRun p st => exact k.frame .laneRun p st h taken
  | laneRecipe p st => exact k.frame .laneRecipe p st h taken
  | toolReady p st => exact k.frame .toolReady p st h taken
  | laneConfig p st => exact k.frame .laneConfig p st h taken
  | laneConfigGroup p ident value => exact Host.Outcome.next.inj taken ▸ k.groupStep (by simp) p _ h
  | channelSet p st => exact k.frame .channelSet p st h taken
  | channelSetGroup p channel width recovery => exact Host.Outcome.next.inj taken ▸ k.groupStep (by simp) p _ h
  | mapWrite p st => exact k.frame .mapWrite p st h taken
  | mapWriteGradeByte p grade => exact Host.Outcome.next.inj taken ▸ k.groupStep (by simp) p _ h
  | mapCommit p st => exact k.frame .mapCommit p st h taken
  | gradeMode p st => exact k.frame .gradeMode p st h taken
  | verdict p st => exact k.frame .verdict p st h taken
  | gradeEntry p st => exact k.frame .gradeEntry p st h taken
  | orderPut p st => exact k.frame .orderPut p st h taken
  | orderSuspend p st => exact k.frame .orderSuspend p st h taken
  | orderResume p st => exact k.frame .orderResume p st h taken
  | orderAdd p st => exact k.frame .orderAdd p st h taken
  | orderCancel p st => exact k.frame .orderCancel p st h taken
  | orderRetire p st => exact k.frame .orderRetire p st h taken
  | takeLabel p st => exact k.frame .takeLabel p st h taken
  | labelRelease p => exact Host.Outcome.next.inj taken ▸ k.release _ p h
  | binCleared p st => exact k.frame .binCleared p st h taken
  | sampleSet p st => exact k.frame .sampleSet p st h taken
  | traceRead p st => exact k.frame .traceRead p st h taken
  | traceRelease p => exact Host.Outcome.next.inj taken ▸ k.release _ p h
  | faultRead p st => exact k.frame .faultRead p st h taken
  | faultRecordRelease p => exact Host.Outcome.next.inj taken ▸ k.release _ p h
  | stripRead p st => exact k.frame .stripRead p st h taken
  | laneRead p st => exact k.frame .laneRead p st h taken
  | mapRead p st => exact k.frame .mapRead p st h taken
  | channelRead p st => exact k.frame .channelRead p st h taken
  | orderRead p st => exact k.frame .orderRead p st h taken
  | binRead p st => exact k.frame .binRead p st h taken
  | blankReadyActive l => exact Host.Outcome.next.inj taken ▸ k.blankReadyActive s l h
  | blankReadyInactive l => exact Host.Outcome.next.inj taken ▸ k.blankReadyInactive s l h
  | exitEyeLeadEdge l => exact Host.Outcome.next.inj taken ▸ k.exitEye s l h
  | entryEyeLeadEdge => exact Host.Outcome.next.inj taken ▸ k.leadEdge s h
  | entryEyeTrailEdge => exact Host.Outcome.next.inj taken ▸ k.trailEdge s h
  | encoderForwardCount => exact Host.Outcome.next.inj taken ▸ k.forward s h
  | encoderReverseCount => exact Host.Outcome.next.inj taken ▸ k.reverse s h
  | deadlineArrival n => exact Host.Outcome.next.inj taken ▸ k.arrival (d := .deadline n) rfl h
  | trimArrival n => exact Host.Outcome.next.inj taken ▸ k.arrival (d := .trim n) rfl h
  | sortArrival n x => exact Host.Outcome.next.inj taken ▸ k.arrival (d := .sort n x) rfl h
  | runoutArrival n x => exact Host.Outcome.next.inj taken ▸ k.arrival (d := .runout n x) rfl h
  | fireRequest c => exact Host.Outcome.next.inj taken ▸ k.arrival (d := .fire c) rfl h
  | transitTimeout => exact Host.Outcome.next.inj taken ▸ k.arrival (d := .transit) rfl h
  | gapOpenSet => exact Host.Outcome.next.inj taken ▸ k.arrival (d := .gap) rfl h
  | overLengthCutOff => exact Host.Outcome.next.inj taken ▸ k.arrival (d := .cutOff) rfl h
  | windowEnd b n x => exact Host.Outcome.next.inj taken ▸ k.arrival (d := .window b n x) rfl h
  | dropEyePulse b => exact Host.Outcome.next.inj taken ▸ k.dropPulse s b h
  | guardOpen =>
    refine Host.Outcome.next.inj taken ▸ ?_
    split
    · exact h
    · exact k.openGuard s h
  | guardClose => exact Host.Outcome.next.inj taken ▸ k.closeGuard s h
  | delayTimerRunOut l => exact Host.Outcome.next.inj taken ▸ k.timerRunsOut s _ _ h
  | idleTimerRunOut l => exact Host.Outcome.next.inj taken ▸ k.timerRunsOut s _ _ h
  | releasePulseEnd l => exact Host.Outcome.next.inj taken ▸ k.timerRunsOut s _ _ h
  | outfeedPulseEnd l => exact Host.Outcome.next.inj taken ▸ k.timerRunsOut s _ _ h
  | firePulseEnd c =>
    simp only [Machine.exec, execFirePulseEnd] at taken
    split at taken
    · exact Host.Outcome.next.inj taken ▸ k.elapseTo s _ _ h
    · exact Host.Outcome.next.inj taken ▸ h
    · exact Host.Outcome.next.inj taken ▸ h
  | fireRecoveryEnd c =>
    simp only [Machine.exec, execFireRecoveryEnd] at taken
    split at taken
    · exact Host.Outcome.next.inj taken ▸ k.elapseTo s _ _ h
    · exact Host.Outcome.next.inj taken ▸ h
    · exact Host.Outcome.next.inj taken ▸ h
  | beltRunChange active => exact Host.Outcome.next.inj taken ▸ k.beltRun s active h

/-- Every step keeps what the meanings keep, of an invariant that the queue of waiting commands does not enter. -/
theorem Kept.step (pending : ∀ (s : State) (q : List Instr), P s → P { s with pending := q }) {s t : State} (h : P s)
    (stepped : step s = .next t) : P t := by
  unfold Machine.step at stepped
  split at stepped
  · exact k.exec (pending s _ h) stepped
  · exact Host.Outcome.next.inj stepped ▸ State.idleStep_keeps k.dueAll k.choice k.tick s h

end

end Sys2Proof.Machine

/-! What the part's own work keeps (`State.Evolves`), and the few writes beside it: enough for an invariant of the
ports, of the marks, of the bounds and of the guard. -/

namespace Sys2Proof.Machine

/-- Every block of the part: the queue of waiting commands is none. -/
def partBlocks : List Block :=
  [.track, .lanes, .merge, .gauge, .grading, .fire, .cut, .book, .bins, .holds, .audit, .ports, .guardInput,
    .beltRunInput, .time, .choices]

/-- The writes of the part: its own work, and what sets or moves a value that its own work keeps. An
invariant that reads none of what a write changes need not say so. -/
structure WriteKept (P : State → Prop) : Prop where
  evolves : ∀ {s t : State}, s.Evolves partBlocks t → P s → P t
  port : ∀ (s : State) (p : PortId) (r : Result) (f : Option Frame), P s →
    P (s.modPort p fun q => { q with result := r, frame := f }) := by exact fun _ _ _ _ h => h
  assign : ∀ (s : State) (p : PortId) (r : Role), p ≠ 0 → r ≠ .supervisor → (r ≠ .none → s.roleTaken p r = false) →
    P s → P (s.modPort p fun q => q.assign r) := by exact fun _ _ _ _ _ _ h => h
  powerUp : ∀ (s : State) (levels : InputLevels), P s → P (s.powerUp levels)
  marks : ∀ (s : State) (m : Marks), m.passes s.gauge.maxStrip s.bnc.dropWindow = true → P s →
    P { s with track.marks := m } := by exact fun _ _ _ h => h
  maxStrip : ∀ (s : State) (v : Nat), s.track.marks.allowStrip v = true → P s → P { s with gauge.maxStrip := v } := by
    exact fun _ _ _ h => h
  dropWindow : ∀ (s : State) (v : Nat), s.track.marks.gates[10] + v < s.track.marks.runout → P s →
    P { s with bnc.dropWindow := v } := by exact fun _ _ _ h => h
  rejectMax : ∀ (s : State) (v : Nat), P s → P { s with bnc.rejectMax := v } := by exact fun _ _ h => h
  runoutMax : ∀ (s : State) (v : Nat), P s → P { s with bnc.runoutMax := v } := by exact fun _ _ h => h
  runoutCount : ∀ (s : State) (v : Nat), v ≤ 65535 → P s → P { s with bnc.runoutCount := v } := by
    exact fun _ _ _ h => h
  join : ∀ (s : State) (o : Order), s.book.length < 32 → s.order o.id = none → P s →
    P { s with book := s.book ++ [o] } := by exact fun _ _ _ _ h => h
  retire : ∀ (s : State) (f : Order → Bool), P s → P { s with book := s.book.eraseP f } := by
    exact fun _ _ h => h
  position : ∀ (s : State) (x : Pos), P s → P { s with track.position := x } := by exact fun _ _ h => h
  backlash : ∀ (s : State) (v : Nat), (s.track.backlash ≤ 65535 → v ≤ 65535) → P s →
    P { s with track.backlash := v } := by exact fun _ _ _ h => h

section
variable {P : State → Prop} (k : WriteKept P)
include k

theorem WriteKept.mono {bs : List Block} {s t : State} (e : s.Evolves bs t) (h : P s)
    (listed : bs ⊆ partBlocks := by decide) : P t := k.evolves (e.mono listed) h

theorem WriteKept.takeRoleSet (ps : List Byte) (s : State) (h : P s) : P (takeRoleSet ps s).1 := by
  unfold Machine.takeRoleSet
  split
  · split
    · rename_i p r _ _
      unfold setRole
      split
      · exact h
      · rename_i listed
        obtain ⟨notZero, notSupervisor⟩ := not_or.mp listed
        split
        · exact h
        · rename_i free
          refine k.assign s p r notZero notSupervisor (fun some => ?_) h
          exact Bool.eq_false_iff.mpr fun taken => free ⟨some, taken⟩
    · exact h
    · exact h
  · exact h

theorem WriteKept.takeMarksSet (ps : List Byte) (s : State) (h : P s) : P (takeMarksSet ps s).1 := by
  unfold Machine.takeMarksSet
  split
  · rename_i m _
    unfold setMarks
    split
    · exact h
    · split
      · exact k.marks s m ‹_› h
      · exact h
  · exact h

theorem WriteKept.takeOrderPut (ps : List Byte) (s : State) (h : P s) : P (takeOrderPut ps s).1 := by
  unfold Machine.takeOrderPut
  split
  · rename_i o _
    unfold putOrder
    split
    · exact h
    · split
      · exact h
      · rename_i room fresh
        split
        · refine k.mono (bs := binBlocks) ?_ (k.join s o (Nat.not_le.mp room) (Option.not_isSome_iff_eq_none.mp fresh) h)
          exact (State.raise_evolves ..).comp (State.runArbiter_evolves _)
        · exact h
  · exact h

theorem WriteKept.takeOrderRetire (ps : List Byte) (s : State) (h : P s) : P (takeOrder retireOrder ps s).1 := by
  have retired : ∀ o : Order, P (retireOrder o s).1 := by
    intro o
    unfold retireOrder
    split <;> first | exact k.retire s _ h | exact h
  unfold takeOrder
  split
  · unfold onOrder
    split
    · exact h
    · split
      · exact retired _
      · exact h
  · exact h

theorem WriteKept.takeRunoutCleared (ps : List Byte) (s : State) (h : P s) : P (takeRunoutCleared ps s).1 :=
  k.mono (State.setHolds_evolves _ _) (k.runoutCount s 0 (Nat.zero_le _) h)

/-- Each whole command's own rule is the part's own work, or one of the writes. -/
theorem WriteKept.rule (c : Cmd) (ps : List Byte) (s : State) (h : P s) : P (Cmd.rule c ps s).1 := by
  cases c with
  | roleSet => exact k.takeRoleSet ps s h
  | marksSet => exact k.takeMarksSet ps s h
  | orderPut => exact k.takeOrderPut ps s h
  | orderRetire => exact k.takeOrderRetire ps s h
  | runoutCleared => exact k.takeRunoutCleared ps s h
  | hold => exact k.mono (takeHold_evolves ps s) h
  | resume => exact k.mono (takeResume_evolves ps s) h
  | lineClear => exact k.mono (takeLineClear_evolves ps s) h
  | removeStrip => exact k.mono (takeRemoveStrip_evolves ps s) h
  | removeSpan => exact k.mono (takeRemoveSpan_evolves ps s) h
  | removeLane => exact k.mono (takeLane_evolves removeLane_evolves ps s) h
  | rejectCleared => exact k.mono (takeRejectCleared_evolves ps s) h
  | binService => exact k.mono (takeBinService_evolves ps s) h
  | laneStart => exact k.mono (takeLane_evolves laneStart_evolves ps s) h
  | laneStop => exact k.mono (takeLane_evolves laneStop_evolves ps s) h
  | laneHold => exact k.mono (takeLane_evolves laneHold_evolves ps s) h
  | laneRun => exact k.mono (takeLane_evolves laneRun_evolves ps s) h
  | laneRecipe => exact k.mono (takeLaneRecipe_evolves ps s) h
  | toolReady => exact k.mono (takeLane_evolves toolReady_evolves ps s) h
  | mapCommit => exact k.mono (takeMapCommit_evolves ps s) h
  | gradeMode => exact k.mono (takeGradeMode_evolves ps s) h
  | verdict => exact k.mono (takeGrading_evolves _ ps s) h
  | gradeEntry => exact k.mono (takeGrading_evolves _ ps s) h
  | orderSuspend => exact k.mono (takeOrder_evolves suspendOrder_evolves ps s) h
  | orderResume => exact k.mono (takeOrder_evolves resumeOrder_evolves ps s) h
  | orderAdd => exact k.mono (takeOrderAdd_evolves ps s) h
  | orderCancel => exact k.mono (takeOrder_evolves cancelOrder_evolves ps s) h
  | binCleared => exact k.mono (takeBinCleared_evolves ps s) h
  | sampleSet => exact k.mono (takeSampleSet_evolves ps s) h
  | _ => exact h

/-- R190, Table 10-6: each limit is a write of one field, and four of them are kept by the part's own work. -/
theorem WriteKept.applyLimit {ident v : Nat} {s t : State} (applied : s.applyLimit ident v = some t) (h : P s) :
    P t := by
  have guarded : ∀ {c : Prop} [Decidable c] {u : State}, (if c then some u else none) = some t → c ∧ u = t := by
    intro c _ u taken
    split at taken
    · exact ⟨‹c›, Option.some.inj taken⟩
    · cases taken
  unfold State.applyLimit at applied
  split at applied
  case h_1 =>
    obtain ⟨m, -, rfl⟩ := Option.map_eq_some_iff.mp applied
    exact k.mono ((State.Evolves.of_fields (bs := [.merge])).comp (State.arbitrate_evolves _) (ds := mergeBlocks)) h
  case h_2 =>
    obtain ⟨-, rfl⟩ := guarded applied
    exact k.mono ((State.Evolves.of_fields (bs := [.merge])).comp (State.arbitrate_evolves _) (ds := mergeBlocks)) h
  case h_3 =>
    obtain ⟨-, rfl⟩ := guarded applied
    exact k.mono ((State.Evolves.of_fields (bs := [.merge])).comp (State.testTransit_evolves _) (ds := partBlocks)) h
  case h_4 =>
    obtain ⟨-, rfl⟩ := guarded applied
    exact k.mono (State.Evolves.of_fields (bs := [.gauge])) h
  case h_5 =>
    obtain ⟨⟨-, -, -, allowed⟩, rfl⟩ := guarded applied
    exact k.mono (State.testCutOff_evolves _) (k.maxStrip s v allowed h)
  case h_13 =>
    obtain ⟨⟨-, -, room⟩, rfl⟩ := guarded applied
    exact k.dropWindow s v room h
  case h_14 =>
    obtain ⟨-, rfl⟩ := guarded applied
    exact k.mono (State.testReject_evolves _) (k.rejectMax s v h)
  case h_15 =>
    obtain ⟨-, rfl⟩ := guarded applied
    exact k.mono (State.testRunout_evolves _) (k.runoutMax s v h)
  case h_11 | h_12 =>
    obtain ⟨-, rfl⟩ := guarded applied
    exact k.mono (State.Evolves.of_fields (bs := [.cut])) h
  case h_16 => cases applied
  all_goals
    obtain ⟨-, rfl⟩ := guarded applied
    exact k.mono (State.Evolves.of_fields (bs := [.grading])) h

theorem WriteKept.limitsApply (i : Incremental) (bs : List Byte) (s : State) (h : P s) : P (limitsApply i bs s).1 := by
  unfold Machine.limitsApply
  split
  · unfold applyOrFail
    split
    · exact k.applyLimit ‹_› h
    · exact h
  · exact h

theorem WriteKept.group (g : Grouped) (listed : g ∈ [limitsGrouped, laneConfigGrouped, channelSetGrouped, mapGrouped])
    (s : State) (i : Incremental) (bs : List Byte) (h : P s) : P (g.apply i bs s).1 := by
  simp only [List.mem_cons, List.not_mem_nil, or_false] at listed
  rcases listed with rfl | rfl | rfl | rfl
  · exact k.limitsApply i bs s h
  · exact k.mono (laneConfigApply_evolves i bs s) h
  · exact k.mono (channelSetApply_evolves i bs s) h
  · exact k.mono (mapApply_evolves i bs s) h

end

/-! ## Releases and run-outs -/

/-- What a read hands over leaves its owner by the owner's own work. -/
theorem State.releaseHand_evolves (s : State) (p : PortId) (h : Handover) :
    s.Evolves [.book, .bins, .audit, .ports] (s.releaseHand p h) := by
  cases h with
  | nothing => exact .refl _ _
  | flag lost =>
    show s.Evolves _ (s.releaseFlag p lost)
    exact (State.modPort_evolves s p _ ⟨rfl, rfl, id⟩).mono
  | events discarded =>
    show s.Evolves _ (s.releaseEvent p discarded)
    unfold State.releaseEvent
    split
    · exact .refl _ _
    · exact (State.modPort_evolves s p _ ⟨rfl, rfl, fun places => by simp; omega⟩).mono
  | label slot serial =>
    show s.Evolves _ (s.releaseLabel slot serial)
    unfold State.releaseLabel
    split
    · exact (State.Evolves.of_fields (bs := [.bins])).comp (State.compose_evolves _)
    · exact .refl _ _
  | trace =>
    show s.Evolves _ s.releaseTrace
    unfold State.releaseTrace
    split
    · exact .of_fields (entries := fun _ => Nat.zero_le _)
    · exact .refl _ _
  | fault => exact .of_fields

section
variable {P : State → Prop} (evolves : ∀ {s t : State}, s.Evolves partBlocks t → P s → P t)
  (runoutCount : ∀ (s : State) (v : Nat), v ≤ 65535 → P s → P { s with bnc.runoutCount := v })
include evolves runoutCount

theorem State.runOut_keeps (s : State) (r : PieceRec) (h : P s) : P (s.runOut r) :=
  evolves (State.testRunout_evolves _).mono
    (runoutCount _ _ (Nat.min_le_left ..) (evolves (State.removeBelt_evolves s (.piece r) .runout).mono h))

/-- Each event that can be due is the part's own work, but for a piece that runs out. -/
theorem State.takeDue_keeps (s : State) (d : Due) (h : P s) : P (s.takeDue d) := by
  cases d with
  | deadline n => exact evolves (State.deadlineArrival_evolves s n).mono h
  | trim n => exact evolves (State.trimArrival_evolves s n).mono h
  | sort n x => exact evolves (State.sortArrival_evolves s n x).mono h
  | runout n x =>
    show P (s.runoutArrival n x)
    unfold State.runoutArrival
    split
    · split
      · exact State.runOut_keeps evolves runoutCount s _ h
      · exact h
    · exact h
  | fire c => exact evolves (State.fireRequest_evolves s c).mono h
  | transit => exact evolves (State.testTransit_evolves s).mono h
  | gap =>
    show P (if s.gapDue then s.openGap else s)
    split
    · exact evolves (State.openGap_evolves s).mono h
    · exact h
  | cutOff => exact evolves (State.testCutOff_evolves s).mono h
  | window b n x => exact evolves (State.windowEnds_evolves s b n x).mono h
  | delay l => exact evolves (State.enterRun_evolves s l).mono h
  | idle l => exact evolves (State.enterLane_evolves s l .standby).mono h
  | releaseEnd l => exact evolves (State.releaseEnds_evolves s l).mono h
  | outfeedEnd l => exact evolves (State.outfeedEnds_evolves s l).mono h
  | pulseEnd c => exact evolves (State.endPulse_evolves s c).mono h
  | recoveryEnd c => exact evolves (State.toIdle_evolves s c).mono h

end

theorem WriteKept.advance {P : State → Prop} (k : WriteKept P) (s : State) (h : P s) : P s.advance := by
  have moved := k.position s (s.track.position + 1) h
  unfold State.advance
  dsimp only
  split
  · exact k.mono (State.objectEnds_evolves _) moved
  · exact moved
  · exact moved

/-- An invariant that the part's own work and the other writes keep is kept by every meaning. -/
theorem WriteKept.kept {P : State → Prop} (k : WriteKept P) : Kept P where
  port := k.port
  rule := k.rule
  group := k.group
  hand s p h := k.mono (State.releaseHand_evolves s p h)
  due s d _ := State.takeDue_keeps k.evolves k.runoutCount s d
  choice _ := k.mono (State.Evolves.of_fields (bs := [.choices]))
  tick s us := k.mono (State.countDown_evolves s us)
  powerUp := k.powerUp
  blankReadyActive s l := k.mono (State.blankReadyActive_evolves s l)
  blankReadyInactive s l := k.mono (State.blankReadyInactive_evolves s l)
  exitEye s l := k.mono (State.exitEye_evolves s l)
  leadEdge s := k.mono (State.leadEdge_evolves s)
  trailEdge s := k.mono (State.trailEdge_evolves s)
  payBacklash s := k.backlash s _ fun bound => (Nat.sub_le ..).trans bound
  advance := k.advance
  reverse s := k.backlash s _ fun _ => Nat.min_le_left ..
  dropPulse s b := k.mono (State.dropPulse_evolves s b)
  openGuard s := k.mono (State.openGuard_evolves s)
  closeGuard s := k.mono (State.closeGuard_evolves s)
  beltRun s active := k.mono (State.setBeltRun_evolves s active)

end Sys2Proof.Machine

/-! The invariants that the part's own work keeps: the queue of waiting commands, the ports, the marks, the bounds and
the guard. -/

namespace Sys2Proof.Machine

/-! ## The queue of waiting commands -/

/-- Every command answers a next state. -/
theorem exec_answers (i : Instr) (s : State) : ∃ t, exec i s = .next t := by
  cases i
  case firePulseEnd c =>
    simp only [exec, execFirePulseEnd]
    split <;> exact ⟨_, rfl⟩
  case fireRecoveryEnd c =>
    simp only [exec, execFireRecoveryEnd]
    split <;> exact ⟨_, rfl⟩
  all_goals exact ⟨_, rfl⟩

/-- No block of the part reaches the queue of waiting commands. -/
theorem pending_writeKept (q : List Instr) : WriteKept fun t => t.pending = q where
  evolves e h := e.frame.pending.trans h
  powerUp _ _ h := h

/-- Settles O3: `exec` has no other answer than a next state, and the queue is kept by every meaning. -/
theorem commandsLeaveTheQueueAlone : Obligations.CommandsLeaveTheQueueAlone := by
  intro c s
  obtain ⟨t, taken⟩ := exec_answers c s
  exact ⟨t, taken, (pending_writeKept s.pending).kept.exec rfl taken⟩

/-! ## The ports -/

theorem State.portsLawful_of_evolves {bs : List Block} {s t : State} (e : s.Evolves bs t) (h : s.portsLawful) :
    t.portsLawful := by
  obtain ⟨supervisor, single, places⟩ := h
  refine ⟨(e.ports 0).role.trans supervisor, fun p q differ same => ?_, fun p => (e.ports p).places (places p)⟩
  rw [(e.ports p).role, (e.ports q).role] at same
  exact (e.ports p).role.trans (single p q differ same)

theorem State.portsLawful_congr {s t : State} (same : ∀ p, (t.port p).role = (s.port p).role ∧
    (t.port p).queue = (s.port p).queue) (h : s.portsLawful) : t.portsLawful := by
  obtain ⟨supervisor, single, places⟩ := h
  refine ⟨(same 0).1.trans supervisor, fun p q differ equal => ?_, fun p => (same p).2 ▸ places p⟩
  rw [(same p).1, (same q).1] at equal
  exact (same p).1.trans (single p q differ equal)

theorem State.roleTaken_eq_false {s : State} {p : PortId} {r : Role} (h : s.roleTaken p r = false) (q : PortId)
    (differ : q ≠ p) : (s.port q).role ≠ r := by
  have none := List.any_eq_false.mp h q (List.mem_finRange q)
  simpa [differ] using none

/-- R184: a port takes a role that no other port holds, unless it is NONE. -/
theorem State.portsLawful_assign {s : State} {p : PortId} {r : Role} (notZero : p ≠ 0)
    (free : r ≠ .none → s.roleTaken p r = false) (h : s.portsLawful) :
    (s.modPort p fun q => q.assign r).portsLawful := by
  obtain ⟨supervisor, single, places⟩ := h
  have role : ∀ q, ((s.modPort p fun q => q.assign r).port q).role = if q = p then r else (s.port q).role := by
    intro q
    rw [State.port_modPort]
    split <;> rfl
  refine ⟨?zero, fun x y differ same => ?single, fun x => ?places⟩
  case zero => rw [role, if_neg (Ne.symm notZero), supervisor]
  case single =>
    rw [role x, role y] at same
    rw [role x]
    by_cases isNone : r = .none
    · by_cases hx : x = p
      · rw [if_pos hx, isNone]
      · rw [if_neg hx] at same ⊢
        by_cases hy : y = p
        · rw [same, if_pos hy, isNone]
        · rw [if_neg hy] at same
          exact single x y differ same
    · have other := State.roleTaken_eq_false (free isNone)
      by_cases hx : x = p
      · have hy : y ≠ p := fun hy => differ (hx.trans hy.symm)
        rw [if_pos hx, if_neg hy] at same
        exact absurd same.symm (other y hy)
      · rw [if_neg hx] at same ⊢
        by_cases hy : y = p
        · rw [if_pos hy] at same
          exact absurd same (other x hx)
        · rw [if_neg hy] at same
          exact single x y differ same
  case places =>
    rw [State.port_modPort]
    split
    · exact Nat.zero_le _
    · exact places x

theorem State.port_powerOn (levels : InputLevels) (p : PortId) : (State.powerOn levels).port p = Port.powerOn p := by
  simp [State.port, State.powerOn]

/-- R184: after power-on port 0 holds SUPERVISOR, the others hold NONE, and the queues are empty. -/
theorem State.powerOn_portsLawful (levels : InputLevels) : (State.powerOn levels).portsLawful := by
  refine ⟨by rw [State.port_powerOn]; rfl, fun p q differ => ?_, fun p => by rw [State.port_powerOn]; exact Nat.zero_le _⟩
  rw [State.port_powerOn, State.port_powerOn]
  revert p q
  decide

theorem portsLawful_writeKept : WriteKept State.portsLawful where
  evolves e h := State.portsLawful_of_evolves e h
  port s p r f h := by
    refine State.portsLawful_congr (fun q => ?_) h
    rw [State.port_modPort]
    split
    · subst q; exact ⟨rfl, rfl⟩
    · exact ⟨rfl, rfl⟩
  assign _ _ _ notZero _ free h := State.portsLawful_assign notZero free h
  powerUp _ levels _ := State.powerOn_portsLawful levels

/-- Settles O12: the ports keep their roles and places through the part's own work, a frame's bookkeeping touches
neither, and ROLE_SET gives a role that no other port holds. -/
theorem stepKeepsThePortsLawful : Obligations.StepKeepsThePortsLawful :=
  fun _ _ h stepped => portsLawful_writeKept.kept.step (fun _ _ h => h) h stepped

/-! ## The marks, the bounds and the guard -/

/-- R19: the relations that concern MAX_STRIP alone, at another MAX_STRIP. -/
theorem Marks.passes_maxStrip {m : Marks} {v w d : Nat} (h : m.passes v d = true) (allowed : m.allowStrip w = true) :
    m.passes w d = true := by
  simp only [Marks.passes, Marks.allowStrip, Bool.and_eq_true, decide_eq_true_eq] at h allowed ⊢
  tauto

/-- R19: the relation that concerns DROP_WINDOW, at another DROP_WINDOW. -/
theorem Marks.passes_dropWindow {m : Marks} {v d w : Nat} (h : m.passes v d = true) (room : m.gates[10] + w < m.runout) :
    m.passes v w = true := by
  simp only [Marks.passes, Bool.and_eq_true, decide_eq_true_eq] at h ⊢
  tauto

theorem State.powerOn_marksOrdered (levels : InputLevels) : (State.powerOn levels).marksOrdered :=
  show Marks.powerOn.passes 6400 1600 = true by decide

theorem marksOrdered_writeKept : WriteKept State.marksOrdered where
  evolves e h := by
    unfold State.marksOrdered at h ⊢
    rwa [e.marks, e.maxStrip, e.dropWindow]
  powerUp _ levels _ := State.powerOn_marksOrdered levels
  marks _ _ passes _ := passes
  maxStrip _ _ allowed h := Marks.passes_maxStrip h allowed
  dropWindow _ _ room h := Marks.passes_dropWindow h room

/-- An order id that the book does not hold joins it as a new one. -/
theorem State.ids_nodup_join {s : State} {o : Order} (fresh : s.order o.id = none) (h : (s.book.map Order.id).Nodup) :
    ((s.book ++ [o]).map Order.id).Nodup := by
  have absent : o.id ∉ s.book.map Order.id := by
    rintro held
    obtain ⟨x, inBook, same⟩ := List.mem_map.mp held
    have none := List.find?_eq_none.mp fresh x inBook
    simp [same] at none
  rw [List.map_append, List.map_singleton]
  exact (List.nodup_append_comm.mp (List.nodup_cons.mpr ⟨absent, h⟩))

theorem State.powerOn_withinBounds (levels : InputLevels) : (State.powerOn levels).withinBounds :=
  ⟨Nat.zero_le _, Nat.zero_le _, Nat.zero_le _, Nat.zero_le _, Nat.zero_le _, List.nodup_nil⟩

theorem withinBounds_writeKept : WriteKept State.withinBounds where
  evolves e h := by
    obtain ⟨schedule, backlash, book, entries, runouts, ids⟩ := h
    have places : _ = _ := congrArg List.length e.ids
    simp only [List.length_map] at places
    exact ⟨e.schedule schedule, e.backlash ▸ backlash, places ▸ book, e.entries entries, e.runouts ▸ runouts,
      e.ids ▸ ids⟩
  powerUp _ levels _ := State.powerOn_withinBounds levels
  runoutCount _ _ bound h := by
    obtain ⟨schedule, backlash, book, entries, -, ids⟩ := h
    exact ⟨schedule, backlash, book, entries, bound, ids⟩
  join _ _ room fresh h := by
    obtain ⟨schedule, backlash, -, entries, runouts, ids⟩ := h
    refine ⟨schedule, backlash, ?_, entries, runouts, State.ids_nodup_join fresh ids⟩
    simp only [List.length_append, List.length_singleton]
    omega
  retire _ f h := by
    obtain ⟨schedule, backlash, book, entries, runouts, ids⟩ := h
    exact ⟨schedule, backlash, (List.length_eraseP_le ..).trans book, entries, runouts,
      ids.sublist ((List.eraseP_sublist ..).map _)⟩
  backlash _ _ bound h := by
    obtain ⟨schedule, backlash, book, entries, runouts, ids⟩ := h
    exact ⟨schedule, bound backlash, book, entries, runouts, ids⟩

theorem State.powerOn_guarded (levels : InputLevels) : (State.powerOn levels).guarded := by
  intro _ c
  simp [State.channel, State.powerOn, Fire.powerOn, Channel.isPulsing, ChannelState.code]

theorem guarded_writeKept : WriteKept State.guarded where
  evolves e h := e.guarded h
  powerUp _ levels _ := State.powerOn_guarded levels

/-- Settles O21: three invariants, each kept by the part's own work and by the writes beside it. -/
theorem stepKeepsMarksBoundsAndGuard : Obligations.StepKeepsMarksBoundsAndGuard :=
  fun _ _ stepped => ⟨fun h => marksOrdered_writeKept.kept.step (fun _ _ h => h) h stepped,
    fun h => withinBounds_writeKept.kept.step (fun _ _ h => h) h stepped,
    fun h => guarded_writeKept.kept.step (fun _ _ h => h) h stepped⟩

end Sys2Proof.Machine

/-! What the part's own work does to the records and to the lanes: a few moves, each stated once, of which every
meaning but power-on is made. The reserve and the lanes' laws are then an induction over the moves. -/

namespace Sys2Proof.Machine

/-! ## The moves -/

/-- One state comes from another by moves of records and lane controllers. -/
inductive State.Handles : State → State → Prop
  /-- The records and the lanes are as they were. -/
  | quiet {s t : State} (queues : t.track.queues = s.track.queues) (transit : t.track.transit = s.track.transit)
      (belt : t.track.belt = s.track.belt) (lanes : t.lanes = s.lanes) : Handles s t
  | trans {s t u : State} : Handles s t → Handles t u → Handles s u
  /-- R36: a lane whose release conditions hold releases a blank. -/
  | release {s : State} {l : Lane} (can : s.canRelease l = true) : Handles s (s.release l)
  /-- R30: a lane enters a state; one with the feed stopped on an empty queue, or from such a state, or when its idle
  timer runs. -/
  | enter {s : State} {l : Lane} {st : LaneState} (stopped : st.stopped = true → s.queue l = [] ∨
      (s.lane l).state.stopped = true ∨ (s.lane l).idle.isSome = true) :
      Handles s (s.modLane l fun c => { c with state := st, delay := none, idle := none })
  /-- A lane controller changes in its state, and starts no idle timer; its CAPACITY in OFF alone (R51). -/
  | lane {s : State} {l : Lane} {f : LaneCtl → LaneCtl} (state : (f (s.lane l)).state = (s.lane l).state)
      (idle : (f (s.lane l)).idle.isSome = true → (s.lane l).idle.isSome = true)
      (capacity : (f (s.lane l)).limits.capacity = (s.lane l).limits.capacity ∨ (s.lane l).state = .off) :
      Handles s (s.modLane l f)
  /-- R39: the idle timer starts when its conditions hold. -/
  | idle {s : State} {l : Lane} {f : LaneCtl → LaneCtl} (idle : s.isIdle l = true)
      (state : (f (s.lane l)).state = (s.lane l).state)
      (capacity : (f (s.lane l)).limits.capacity = (s.lane l).limits.capacity) : Handles s (s.modLane l f)
  /-- R32: the lanes' timers count down. -/
  | tick {s : State} {us : Nat} : Handles s (s.countDown us)
  /-- R58: a lane's front record joins the transit list. -/
  | grant {s : State} {l : Lane} {r : StripRec} {rest : List StripRec} (front : s.queue l = r :: rest) :
      Handles s (s.toTransit l r rest)
  /-- R42: a lane's front record is at the exit. -/
  | exits {s : State} {l : Lane} {r : StripRec} {rest : List StripRec} (front : s.queue l = r :: rest) :
      Handles s (s.setQueue l ({ r with state := .atExit } :: rest))
  /-- R25: a lane's front record is removed. -/
  | leaves {s : State} {l : Lane} {r : StripRec} {rest : List StripRec} (front : s.queue l = r :: rest) :
      Handles s (s.setQueue l rest)
  /-- R64: the oldest transit record joins the belt list. -/
  | leads {s : State} {r : StripRec} {rest : List StripRec} (oldest : s.track.transit = r :: rest) :
      Handles s { s with track.transit := rest, track.belt := s.track.belt ++ [.strip (s.led r)] }
  | lost {s : State} {r : StripRec} : Handles s { s with track.transit := s.track.transit.erase r }
  | removed {s : State} {x : BeltRec} : Handles s { s with track.belt := s.track.belt.erase x }
  /-- A strip record of the belt list changes, but for its number, and takes no plan beyond four segments (R84). -/
  | strip {s : State} {n : StripNum} {f : StripRec → StripRec} (number : ∀ r, (f r).number = r.number)
      (plan : ∀ r, ∀ p ∈ (f r).plan, p ∈ r.plan ∨ p.segments.length ≤ 4) : Handles s (s.modBeltStrip n f)
  | pieces {s : State} {test : PieceRec → Bool} {f : PieceRec → PieceRec} : Handles s (s.modPieces test f)
  /-- R113: a strip of the belt list is replaced by no more pieces than a plan of one has segments, or by one. -/
  | split {s : State} {n : StripNum} {qs : List PieceRec} (few : qs.length ≤ 1 ∨
      ∃ r ∈ s.strips, ∃ p ∈ r.plan, qs.length ≤ p.segments.length) : Handles s (s.replaceStrip n qs)
  /-- R28: the track is emptied. -/
  | clear {s : State} : Handles s { s with track := s.track.cleared }

theorem State.Handles.refl (s : State) : s.Handles s := .quiet rfl rfl rfl rfl

/-- A write that touches neither the records nor the lanes comes before the moves. -/
theorem State.Handles.after_write {s t u : State} (moves : t.Handles u)
    (queues : t.track.queues = s.track.queues := by rfl) (transit : t.track.transit = s.track.transit := by rfl)
    (belt : t.track.belt = s.track.belt := by rfl) (lanes : t.lanes = s.lanes := by rfl) : s.Handles u :=
  (State.Handles.quiet queues transit belt lanes).trans moves

theorem State.Handles.of_frame {bs : List Block} {s t : State} (h : s.unchangedBut bs t)
    (track : Block.track ∉ bs := by decide) (lanes : Block.lanes ∉ bs := by decide) : s.Handles t := by
  have same := h.track track
  exact .quiet (by rw [same]) (by rw [same]) (by rw [same]) (h.lanes lanes)

theorem State.Handles.of_evolves {bs : List Block} {s t : State} (e : s.Evolves bs t)
    (track : Block.track ∉ bs := by decide) (lanes : Block.lanes ∉ bs := by decide) : s.Handles t :=
  .of_frame e.frame track lanes

theorem State.Handles.foldl {α : Type} (f : State → α → State) (hf : ∀ (s : State) (x : α), s.Handles (f s x))
    (xs : List α) (s : State) : s.Handles (xs.foldl f s) := by
  induction xs generalizing s with
  | nil => exact .refl s
  | cons x xs ih => exact (hf s x).trans (ih _)

/-! ## The lanes -/

theorem State.raise_handles (s : State) (e : EventKind) (d : Nat) (n : StripNum) (k x : Nat) :
    s.Handles (s.raise e d n k x) := .of_evolves (State.raise_evolves ..)

theorem State.traceEntry_handles (s : State) (traced : Bool) (kind : TraceKind) (d k : Nat) :
    s.Handles (s.traceEntry traced kind d k) := .of_evolves (State.traceEntry_evolves ..)

theorem State.lineFault_handles (s : State) (kind : FaultKind) (n : StripNum) (k x : Nat) :
    s.Handles (s.lineFault kind n k x) := .of_evolves (State.lineFault_evolves ..)

theorem State.enterLane_handles {s : State} {l : Lane} {st : LaneState} (stopped : st.stopped = true → s.queue l = [] ∨
    (s.lane l).state.stopped = true ∨ (s.lane l).idle.isSome = true) : s.Handles (s.enterLane l st) :=
  (State.Handles.enter stopped).trans (State.raise_handles ..)

theorem State.testRelease_handles (s : State) (l : Lane) : s.Handles (s.testRelease l) := by
  unfold State.testRelease
  split
  · exact .release ‹_›
  · exact .refl s

theorem State.startIdle_handles (s : State) (l : Lane) : s.Handles (s.startIdle l) := by
  unfold State.startIdle
  split
  · exact .idle ‹_› rfl rfl
  · exact .refl s

theorem State.retest_handles (s : State) : s.Handles s.retest := by
  unfold State.retest
  split
  · have counted : s.Handles { s with choices := s.choices + 1 } := .quiet rfl rfl rfl rfl
    exact (counted.trans (State.testRelease_handles ..)).trans (State.testRelease_handles ..)
  · exact (State.testRelease_handles ..).trans (State.testRelease_handles ..)

theorem State.enterRun_handles (s : State) (l : Lane) : s.Handles (s.enterRun l) :=
  ((State.enterLane_handles (st := .run) nofun).trans (State.testRelease_handles ..)).trans (State.startIdle_handles ..)

theorem State.enterDelayed_handles {s : State} {l : Lane} {st : LaneState} (d : Nat)
    (stopped : st.stopped = true → s.queue l = [] ∨ (s.lane l).state.stopped = true ∨
      (s.lane l).idle.isSome = true) : s.Handles (s.enterDelayed l st d) := by
  unfold State.enterDelayed
  dsimp only
  split
  · exact (State.enterLane_handles stopped).trans (State.enterRun_handles ..)
  · exact (State.enterLane_handles stopped).trans (.lane rfl id (.inl rfl))

/-- R48: a drain completes on an empty queue. -/
theorem State.completeDrain_handles {s : State} {l : Lane} (empty : s.queue l = []) : s.Handles (s.completeDrain l) := by
  have still : ∀ f : LaneCtl → LaneCtl, (s.modLane l f).queue l = [] := fun _ => empty
  unfold State.completeDrain
  split
  · exact .refl s
  · exact State.Handles.trans (.lane rfl id (.inl rfl)) (State.enterLane_handles fun _ => .inl (still _))
  · dsimp only
    split
    · exact State.Handles.trans (.lane rfl id (.inl rfl)) (State.enterDelayed_handles _ fun _ => .inl (still _))
    · exact (State.Handles.trans (.lane rfl id (.inl rfl)) (State.enterLane_handles fun _ => .inl (still _))).trans
        (State.raise_handles ..)

theorem State.queue_enterLane (s : State) (l m : Lane) (st : LaneState) : (s.enterLane l st).queue m = s.queue m := by
  rw [State.queue, (State.enterLane_evolves s l st).frame.track, State.queue]

theorem State.enterDrain_handles (s : State) (l : Lane) (target : DrainTarget) : s.Handles (s.enterDrain l target) := by
  have entered : s.Handles ((s.modLane l fun c => { c with target := target }).enterLane l .drain) :=
    State.Handles.trans (.lane rfl id (.inl rfl)) (State.enterLane_handles nofun)
  unfold State.enterDrain
  dsimp only
  split
  · rename_i empty
    exact entered.trans (State.completeDrain_handles ((State.queue_enterLane ..).trans empty))
  · exact entered

theorem State.queueShortened_handles (s : State) (l : Lane) : s.Handles (s.queueShortened l) := by
  unfold State.queueShortened
  split
  · rename_i drained
    exact State.completeDrain_handles drained.2
  · exact (State.testRelease_handles ..).trans (State.startIdle_handles ..)

/-! ## The merge, the holds and removals -/

theorem State.grant_handles (s : State) (l : Lane) : s.Handles (s.grant l) := by
  unfold State.grant
  split
  · exact .refl s
  · rename_i r rest front
    have moved : s.Handles ((s.toTransit l r rest).modLane l LaneCtl.startOutfeed) :=
      (State.Handles.grant front).trans (.lane rfl id (.inl rfl))
    have won : s.Handles { (s.toTransit l r rest).modLane l LaneCtl.startOutfeed with merge := s.mergeAfter l } :=
      moved.trans (.quiet rfl rfl rfl rfl)
    exact ((won.trans (State.traceEntry_handles ..)).trans (State.traceEntry_handles ..)).trans
      (State.queueShortened_handles ..)

theorem State.arbitrateWhile_handles (fuel : Nat) (s : State) : s.Handles (s.arbitrateWhile fuel) := by
  induction fuel generalizing s with
  | zero => exact .refl s
  | succ fuel ih =>
    unfold State.arbitrateWhile
    split
    · exact .refl s
    · rename_i l _
      split
      · split
        · have opened : s.Handles { s.grant l with merge.gapOpen := true } :=
            (State.grant_handles s l).trans (.quiet rfl rfl rfl rfl)
          exact opened.trans (ih _)
        · exact State.grant_handles s l
      · exact .refl s

theorem State.arbitrate_handles (s : State) : s.Handles s.arbitrate := State.arbitrateWhile_handles 2 s

theorem State.setHolds_handles (s : State) (h : Holds) : s.Handles (s.setHolds h) := by
  unfold State.setHolds
  split
  · exact .refl s
  · have raised : s.Handles (State.raise { s with holds := h } .holdChange h.flags 0 0 (h.changed s.holds)) :=
      State.Handles.after_write (State.raise_handles ..)
    dsimp only
    split
    · exact raised.trans (State.arbitrate_handles _)
    · exact raised

theorem State.afterStripRemoval_handles (s : State) (r : StripRec) (cause : Cause) :
    s.Handles (s.afterStripRemoval r cause) :=
  ((State.Handles.of_evolves (State.cancelEntries_evolves ..)).trans
    (.of_evolves (State.auditRemoval_evolves ..))).trans (State.retest_handles _)

theorem State.afterPieceRemoval_handles (s : State) (r : PieceRec) (cause : Cause) :
    s.Handles (s.afterPieceRemoval r cause) := by
  have cancelled : s.Handles (s.cancelEntries fun e => e.names r.number r.index) :=
    .of_evolves (State.cancelEntries_evolves ..)
  unfold State.afterPieceRemoval
  dsimp only
  refine State.Handles.trans (State.Handles.trans ?_ (.of_evolves (State.auditRemoval_evolves ..)))
    (State.retest_handles _)
  split
  · exact cancelled
  · split
    · exact cancelled
    · exact cancelled.trans (.of_evolves (State.lower_evolves ..))

theorem State.removeBelt_handles (s : State) (x : BeltRec) (cause : Cause) : s.Handles (s.removeBelt x cause) := by
  unfold State.removeBelt
  dsimp only
  split
  · exact State.Handles.removed.trans (State.afterStripRemoval_handles ..)
  · exact State.Handles.removed.trans (State.afterPieceRemoval_handles ..)

theorem State.removeTransit_handles (s : State) (r : StripRec) (cause : Cause) :
    s.Handles (s.removeTransit r cause) := State.Handles.lost.trans (State.afterStripRemoval_handles ..)

theorem State.removeFront_handles (s : State) (l : Lane) : s.Handles (s.removeFront l) := by
  unfold State.removeFront
  split
  · exact .refl s
  · rename_i r rest front
    dsimp only
    refine State.Handles.trans (State.Handles.trans ?_ (State.queueShortened_handles ..))
      (State.afterStripRemoval_handles ..)
    split
    · exact (State.Handles.leaves front).trans (.of_evolves (State.setPassedOver_evolves ..))
    · exact .leaves front

theorem State.removeFronts_handles (l : Lane) (n : Nat) (s : State) : s.Handles (State.removeFronts l n s) := by
  induction n generalizing s with
  | zero => exact .refl s
  | succ n ih => exact (State.removeFront_handles s l).trans (ih _)

/-! ## The lane commands and the events of the lanes -/

theorem laneStart_handles (l : Lane) (s : State) : s.Handles (laneStart l s).1 := by
  unfold laneStart
  split
  · rename_i off
    exact State.enterDelayed_handles _ fun _ => .inr (.inl (by rw [off]; rfl))
  · exact .refl s

theorem laneStop_handles (l : Lane) (s : State) : s.Handles (laneStop l s).1 := by
  unfold laneStop
  split
  · exact .refl s
  · split
    · dsimp only
      exact .lane rfl id (.inl rfl)
    · exact .refl s
  all_goals
    split
    · rename_i empty
      exact State.enterLane_handles fun _ => .inl empty
    · exact State.enterDrain_handles ..

theorem laneHold_handles (l : Lane) (s : State) : s.Handles (laneHold l s).1 := by
  unfold laneHold
  split <;> first | exact State.enterLane_handles nofun | exact .refl s

theorem laneRun_handles (l : Lane) (s : State) : s.Handles (laneRun l s).1 := by
  unfold laneRun
  split
  · exact State.enterRun_handles ..
  · exact .refl s

theorem toolReady_handles (l : Lane) (s : State) : s.Handles (toolReady l s).1 := by
  unfold toolReady
  split
  · rename_i change
    exact State.enterDelayed_handles _ fun _ => .inr (.inl (by rw [change]; rfl))
  · exact .refl s

theorem laneRecipe_handles (l : Lane) (r : Recipe) (s : State) : s.Handles (laneRecipe l r s).1 := by
  have drains : s.Handles ((s.modLane l fun c => { c with pending := some r }).enterDrain l .recipe) :=
    State.Handles.trans (t := s.modLane l fun c => { c with pending := some r }) (.lane rfl id (.inl rfl))
      (State.enterDrain_handles ..)
  unfold laneRecipe
  split
  · dsimp only
    exact .lane rfl id (.inl rfl)
  all_goals first | exact drains | exact .refl s

theorem takeLane_handles {f : Lane → State → State × Result} (hf : ∀ l (s : State), s.Handles (f l s).1)
    (ps : List Byte) (s : State) : s.Handles (takeLane f ps s).1 := by
  unfold takeLane
  split
  · split
    · exact hf ..
    · exact .refl s
  · exact .refl s
  · exact .refl s

theorem takeLaneRecipe_handles (ps : List Byte) (s : State) : s.Handles (takeLaneRecipe ps s).1 := by
  unfold takeLaneRecipe
  split
  · split
    · split
      · exact laneRecipe_handles ..
      · exact .refl s
    · exact .refl s
  · exact .refl s

/-- R51: a lane limit group changes no state and starts no idle timer, and CAPACITY changes in OFF alone. -/
theorem LaneCtl.applyLimit_cases {c d : LaneCtl} {ident v : Nat} (applied : c.applyLimit ident v = some d) :
    d.state = c.state ∧ (d.idle.isSome = true → c.idle.isSome = true) ∧
      (d.limits.capacity = c.limits.capacity ∨ c.state = .off) := by
  have guarded : ∀ {p : Prop} [Decidable p] {x : LaneCtl}, (if p then some x else none) = some d → p ∧ x = d := by
    intro p _ x taken
    split at taken
    · exact ⟨‹p›, Option.some.inj taken⟩
    · cases taken
  unfold LaneCtl.applyLimit at applied
  split at applied
  case h_7 => cases applied
  all_goals obtain ⟨conditions, rfl⟩ := guarded applied
  case h_1 => exact ⟨rfl, id, .inr conditions.2.2⟩
  case h_4 =>
    refine ⟨rfl, fun runs => ?_, .inl rfl⟩
    cases running : c.idle with
    | none => simp [LaneCtl.setIdleTimeout, running] at runs
    | some _ => rfl
  all_goals exact ⟨rfl, id, .inl rfl⟩

theorem applyOrFail_handles {t : Option State} {s : State} (h : ∀ u, t = some u → s.Handles u) (i : Incremental) :
    s.Handles (applyOrFail t s i).1 := by
  unfold applyOrFail
  split
  · exact h _ rfl
  · exact .refl s

theorem laneConfigApply_handles (i : Incremental) (bs : List Byte) (s : State) :
    s.Handles (laneConfigApply i bs s).1 := by
  unfold laneConfigApply
  split
  case h_1 =>
    refine applyOrFail_handles (fun u applied => ?_) i
    obtain ⟨c, limit, rfl⟩ := Option.map_eq_some_iff.mp applied
    obtain ⟨state, idle, capacity⟩ := LaneCtl.applyLimit_cases limit
    exact .lane state idle capacity
  all_goals exact .refl s

theorem State.blankReadyActive_handles (s : State) (l : Lane) : s.Handles (s.blankReadyActive l) := by
  unfold State.blankReadyActive
  split
  · exact .refl s
  · have arrived : s.Handles (s.modLane l LaneCtl.blankArrives) := .lane rfl nofun (.inl rfl)
    dsimp only
    split
    · rename_i standby
      refine arrived.trans (State.enterDelayed_handles _ fun _ => .inr (.inl ?_))
      rw [State.lane_modLane, if_pos rfl]
      exact (congrArg LaneState.stopped standby : _)
    · exact arrived.trans (State.testRelease_handles ..)

theorem State.blankReadyInactive_handles (s : State) (l : Lane) : s.Handles (s.blankReadyInactive l) := by
  unfold State.blankReadyInactive
  split
  · have left : s.Handles (s.modLane l LaneCtl.blankLeaves) := .lane rfl id (.inl rfl)
    exact left.trans (State.startIdle_handles ..)
  · exact .refl s

theorem State.exitStray_handles (s : State) (l : Lane) (n : StripNum) : s.Handles (s.exitStray l n) :=
  (State.lineFault_handles ..).trans (State.setHolds_handles ..)

theorem State.exitEye_handles (s : State) (l : Lane) : s.Handles (s.exitEye l) := by
  unfold State.exitEye
  split
  · exact State.exitStray_handles ..
  · rename_i r rest front
    split
    · have exited := (State.Handles.exits front).trans (State.traceEntry_handles _ r.traced .atExit 0 0)
      unfold State.frontExits
      dsimp only
      split
      · exact exited.trans (State.arbitrate_handles _)
      · exact exited
    · exact State.exitStray_handles ..

theorem State.releaseEnds_handles (s : State) (l : Lane) : s.Handles (s.releaseEnds l) := by
  have ended : s.Handles (s.modLane l fun c => { c with releaseTimer := none }) := .lane rfl id (.inl rfl)
  exact ended.trans (State.testRelease_handles ..)

theorem State.outfeedEnds_handles (s : State) (l : Lane) : s.Handles (s.outfeedEnds l) := by
  have ended : s.Handles (s.modLane l fun c => { c with outfeedTimer := none }) := .lane rfl id (.inl rfl)
  unfold State.outfeedEnds
  dsimp only
  split
  · exact ended.trans (State.arbitrate_handles _)
  · exact ended

end Sys2Proof.Machine

/-! The events of the belt, the bins and the limits are moves as well, so that every meaning but power-on is. -/

namespace Sys2Proof.Machine

/-! ## The merge gap, the transit list and the entry gauge -/

theorem State.openGap_handles (s : State) : s.Handles s.openGap :=
  State.Handles.after_write (State.arbitrate_handles _)

theorem State.timeoutWhile_handles (fuel : Nat) (s : State) : s.Handles (s.timeoutWhile fuel) := by
  induction fuel generalizing s with
  | zero => exact .refl s
  | succ fuel ih =>
    unfold State.timeoutWhile
    split
    · exact .refl s
    · split
      · exact ((State.removeTransit_handles ..).trans (State.lineFault_handles ..)).trans (ih _)
      · exact .refl s

theorem State.testTransit_handles (s : State) : s.Handles s.testTransit := State.timeoutWhile_handles _ s

theorem State.phantomEye_handles (s : State) : s.Handles s.phantomEye :=
  (State.lineFault_handles ..).trans (State.setHolds_handles ..)

theorem State.objectStarts_handles (s : State) : s.Handles s.objectStarts := by
  unfold State.objectStarts
  dsimp only
  split
  · exact State.Handles.after_write (State.phantomEye_handles _)
  · rename_i oldest
    refine ((State.Handles.leads oldest).trans ?_).trans (State.traceEntry_handles ..)
    exact .quiet rfl rfl rfl rfl

theorem State.leadEdge_handles (s : State) : s.Handles s.leadEdge := by
  unfold State.leadEdge
  split
  · exact State.objectStarts_handles s
  · exact .quiet rfl rfl rfl rfl
  · exact .refl s

/-- A change of a strip record that leaves its number and its plan. -/
theorem State.Handles.strip_same {s : State} {n : StripNum} {f : StripRec → StripRec}
    (same : ∀ r, (f r).number = r.number ∧ (f r).plan = r.plan) : s.Handles (s.modBeltStrip n f) :=
  .strip (fun r => (same r).1) fun r _ inPlan => .inl ((same r).2 ▸ inPlan)

/-- A change of a strip record that leaves its number and gives it a plan within four segments. -/
theorem State.Handles.strip_planned {s : State} {n : StripNum} {f : StripRec → StripRec}
    (planned : ∀ r, (f r).number = r.number ∧ ∃ p, (f r).plan = some p ∧ p.segments.length ≤ 4) :
    s.Handles (s.modBeltStrip n f) :=
  .strip (fun r => (planned r).1) fun r p inPlan => by
    obtain ⟨-, q, given, few⟩ := planned r
    rw [given] at inPlan
    exact .inr (Option.some.inj inPlan ▸ few)

theorem State.planOutOfRange_handles (s : State) (r : StripRec) (len : Nat) (long : Bool) :
    s.Handles (s.planOutOfRange r len long) := by
  have planned : s.Handles (s.modBeltStrip r.number fun x => x.outOfRangeAt len) :=
    .strip_planned fun x => ⟨rfl, _, rfl, by simp⟩
  exact (planned.trans (State.traceEntry_handles ..)).trans (State.raise_handles ..)

theorem State.measured_handles (s : State) (r : StripRec) (len : Nat) : s.Handles (s.measured r len) := by
  have measured : s.Handles (s.modBeltStrip r.number fun x => { x with length := some len, state := .awaitGrade }) :=
    .strip_same fun x => ⟨rfl, rfl⟩
  exact measured.trans (State.raise_handles ..)

theorem State.measure_handles (s : State) (r : StripRec) : s.Handles (s.measure r) := by
  have noted := State.traceEntry_handles s r.traced .eyeTrail 0 0
  unfold State.measure
  dsimp only
  split
  · exact noted.trans (State.planOutOfRange_handles ..)
  · split
    · exact noted.trans (State.planOutOfRange_handles ..)
    · exact noted.trans (State.measured_handles ..)

theorem State.objectEnds_handles (s : State) : s.Handles s.objectEnds := by
  have cleared : s.Handles { s with gauge.eye := .clear } := .quiet rfl rfl rfl rfl
  unfold State.objectEnds
  dsimp only
  split
  · exact cleared.trans (State.measure_handles ..)
  · split
    · exact .quiet rfl rfl rfl rfl
    · exact cleared.trans (State.phantomEye_handles _)

theorem State.trailEdge_handles (s : State) : s.Handles s.trailEdge := by
  unfold State.trailEdge
  split
  · split
    · exact .quiet rfl rfl rfl rfl
    · exact State.objectEnds_handles s
  · exact .refl s
  · exact .refl s

theorem State.testCutOff_handles (s : State) : s.Handles s.testCutOff := by
  unfold State.testCutOff
  split
  · rename_i r _
    have planned := (State.traceEntry_handles s r.traced .eyeTrail 0 0).trans
      (State.planOutOfRange_handles _ r (s.travel r) true)
    exact planned.trans (.quiet rfl rfl rfl rfl)
  · exact .refl s

theorem State.advance_handles (s : State) : s.Handles s.advance := by
  have moved : s.Handles { s with track.position := s.track.position + 1 } := .quiet rfl rfl rfl rfl
  unfold State.advance
  dsimp only
  split
  · exact moved.trans (State.objectEnds_handles _)
  · exact moved
  · exact moved

/-! ## Grading -/

/-- R84: a plan that passes has no more than four segments. -/
theorem used_length_of_planPasses {len segMin : Nat} {c : Grading.Command} (passes : planPasses len segMin c = true) :
    c.used.length ≤ 4 := by
  simp only [planPasses, Bool.and_eq_true, decide_eq_true_eq] at passes
  obtain ⟨⟨⟨-, few⟩, -⟩, -⟩ := passes
  exact (List.length_take_le ..).trans few

theorem takeGrading_handles (source : PlanSource) (ps : List Byte) (s : State) :
    s.Handles (takeGrading source ps s).1 := by
  have examined : ∀ c, s.Handles (examine source c s).1 := by
    intro c
    unfold examine
    split
    · exact .refl s
    · split
      · exact .refl s
      · split
        · exact .refl s
        · rename_i r _
          split
          · rename_i passes
            have planned : s.Handles (s.modBeltStrip r.number (s.grading.plannedBy c source)) :=
              .strip_planned fun x => ⟨rfl, _, rfl, used_length_of_planPasses passes⟩
            exact planned.trans (State.traceEntry_handles ..)
          · exact .refl s
  unfold takeGrading
  split
  · exact examined _
  · exact .refl s

theorem State.deadlineArrival_handles (s : State) (n : StripNum) : s.Handles (s.deadlineArrival n) := by
  unfold State.deadlineArrival
  split
  · rename_i r _
    split
    · have planned : s.Handles (s.modBeltStrip r.number StripRec.defaulted) :=
        .strip_planned fun x => ⟨rfl, _, rfl, by simp⟩
      exact (planned.trans (State.traceEntry_handles ..)).trans (.of_evolves (State.verdictLate_evolves ..))
    · exact .refl s
  · exact .refl s

/-! ## The split and the fire channels -/

theorem State.trimArrival_handles (s : State) (n : StripNum) : s.Handles (s.trimArrival n) := by
  unfold State.trimArrival
  split
  · rename_i r found
    have inTrack : r ∈ s.strips := List.mem_append_right _ (List.mem_of_find?_eq_some found)
    split
    · rename_i plan planned
      split
      · unfold State.split
        split
        · rename_i t placed
          have grown : t = { s with fire.schedule := t.fire.schedule } := by
            unfold State.placeGroup at placed
            split at placed
            · cases placed; rfl
            · cases placed
          have scheduled : s.Handles t := .of_evolves (State.placeGroup_evolves placed)
          have cut : t.Handles (t.replaceStrip r.number (s.piecesOf r plan)) := by
            refine .split (.inr ⟨r, ?_, plan, planned, ?_⟩)
            · rw [grown]; exact inTrack
            · simp [State.piecesOf]
          exact (scheduled.trans cut).trans (State.retest_handles _)
        · have faulty : s.Handles (s.replaceStrip r.number [s.faultPiece r plan]) := .split (.inl (by simp))
          exact (faulty.trans (State.lineFault_handles ..)).trans (State.retest_handles _)
      · exact .refl s
    · exact .refl s
  · exact .refl s

theorem State.cancelEntries_handles (s : State) (test : FireEntry → Bool) : s.Handles (s.cancelEntries test) :=
  .of_evolves (State.cancelEntries_evolves ..)

theorem State.handOn_handles (s : State) (e : FireEntry) (o : FireOutcome) : s.Handles (s.handOn e o) := by
  have missed : ∀ other, s.Handles (s.endMissed e.number e.index other) := fun _ =>
    State.Handles.pieces.trans (State.cancelEntries_handles ..)
  unfold State.handOn
  split
  · exact .refl s
  · exact State.Handles.pieces.trans (State.cancelEntries_handles ..)
  · exact .pieces
  · exact missed _
  · exact .pieces
  · exact missed _
  · exact .refl s
  · exact .refl s

theorem State.sendRequest_handles (s : State) (e : FireEntry) : s.Handles (s.sendRequest e) := by
  have answered : s.Handles (s.modChannel e.channel fun x => x.request s.guardOpen) := .quiet rfl rfl rfl rfl
  exact ((answered.trans (State.traceEntry_handles ..)).trans (.of_evolves (State.reportMiss_evolves ..))).trans
    (State.handOn_handles ..)

theorem State.fireRequest_handles (s : State) (c : ChannelId) : s.Handles (s.fireRequest c) := by
  unfold State.fireRequest
  split
  · exact State.Handles.trans (t := { s with fire.schedule := s.fire.schedule.eraseP (s.entryDue c) })
      (.quiet rfl rfl rfl rfl) (State.sendRequest_handles ..)
  · exact .refl s

theorem State.openGuard_handles (s : State) : s.Handles s.openGuard := by
  have cut : s.Handles s.cutPulses := .quiet rfl rfl rfl rfl
  exact (cut.trans (State.lineFault_handles ..)).trans (State.setHolds_handles ..)

/-! ## The bins -/

theorem State.testReject_handles (s : State) : s.Handles s.testReject := by
  unfold State.testReject
  split
  · exact State.setHolds_handles ..
  · exact .refl s

theorem State.testRunout_handles (s : State) : s.Handles s.testRunout := by
  unfold State.testRunout
  split
  · exact State.setHolds_handles ..
  · exact .refl s

theorem State.gateRefused_handles (s : State) (r : PieceRec) (b : GateId) : s.Handles (s.gateRefused r b) :=
  (State.Handles.pieces.trans (State.lineFault_handles ..)).trans (State.traceEntry_handles ..)

theorem State.sortPiece_handles (s : State) (r : PieceRec) : s.Handles (s.sortPiece r) := by
  have unallocated : s.Handles (s.unallocated r) := State.Handles.pieces.trans (State.traceEntry_handles ..)
  unfold State.sortPiece
  split
  · split
    · unfold State.assignReject
      split
      · exact State.gateRefused_handles ..
      · rename_i placed
        have scheduled := State.Handles.of_evolves (State.placeGroup_evolves placed)
        exact ((scheduled.trans .pieces).trans (.of_evolves (State.commitReject_evolves ..))).trans
          (State.traceEntry_handles ..)
    · exact unallocated
  · split
    · unfold State.assignOrder
      split
      · exact State.gateRefused_handles ..
      · rename_i placed
        have scheduled := State.Handles.of_evolves (State.placeGroup_evolves placed)
        exact ((scheduled.trans .pieces).trans (.of_evolves (State.commitOrder_evolves ..))).trans
          (State.traceEntry_handles ..)
    · exact unallocated

theorem State.sortArrival_handles (s : State) (n : StripNum) (k : Nat) : s.Handles (s.sortArrival n k) := by
  unfold State.sortArrival
  split
  · split
    · exact State.sortPiece_handles ..
    · exact .refl s
  · exact .refl s

theorem State.runoutArrival_handles (s : State) (n : StripNum) (k : Nat) : s.Handles (s.runoutArrival n k) := by
  unfold State.runoutArrival
  split
  · split
    · have counted : ∀ t : State, t.Handles { t with bnc.runoutCount := min 65535 (t.bnc.runoutCount + 1) } :=
        fun _ => .quiet rfl rfl rfl rfl
      exact ((State.removeBelt_handles ..).trans (counted _)).trans (State.testRunout_handles _)
    · exact .refl s
  · exact .refl s

theorem State.removeDropped_handles (s : State) (r : Option PieceRec) : s.Handles (s.removeDropped r) := by
  unfold State.removeDropped
  split
  · exact State.removeBelt_handles ..
  · exact .refl s

theorem State.dropPulse_handles (s : State) (b : GateId) : s.Handles (s.dropPulse b) := by
  unfold State.dropPulse
  split
  · exact (State.lineFault_handles ..).trans (State.setHolds_handles ..)
  · rename_i e _ _
    split
    · rename_i i _
      have counted : s.Handles (s.modBin i fun x => x.drop (s.boundOrder i) (s.piece e.number e.index)) :=
        .of_evolves (State.modBin_evolves ..)
      exact ((counted.trans (State.removeDropped_handles ..)).trans
        (.of_evolves (State.completeBin_evolves ..))).trans (.of_evolves (State.settleBin_evolves ..))
    · have counted : s.Handles { s with
          bnc.reject := ⟨s.bnc.reject.dropped + 1, s.bnc.reject.expected.tail⟩ } := .quiet rfl rfl rfl rfl
      exact (counted.trans (State.removeDropped_handles ..)).trans (State.testReject_handles _)

theorem State.windowEnds_handles (s : State) (b : GateId) (n : StripNum) (k : Nat) : s.Handles (s.windowEnds b n k) := by
  have lowered : s.Handles (s.lower b n k) := .of_evolves (State.lower_evolves ..)
  unfold State.windowEnds
  split
  · exact ((lowered.trans .pieces).trans (State.traceEntry_handles ..)).trans (State.lineFault_handles ..)
  · exact .refl s

/-! ## The track's own commands -/

theorem takeRemoveStrip_handles (ps : List Byte) (s : State) : s.Handles (takeRemoveStrip ps s).1 := by
  have removed : ∀ n, s.Handles (s.removeNumber n) := fun n =>
    (State.Handles.foldl _ (fun _ _ => State.removeTransit_handles ..) _ _).trans
      (State.Handles.foldl _ (fun _ _ => State.removeBelt_handles ..) _ _)
  unfold takeRemoveStrip
  split
  · unfold removeStrip
    split
    · exact .refl s
    · split
      · exact .refl s
      · split
        · exact .refl s
        · split
          · exact removed _
          · exact .refl s
  · exact .refl s

theorem takeRemoveSpan_handles (ps : List Byte) (s : State) : s.Handles (takeRemoveSpan ps s).1 := by
  unfold takeRemoveSpan
  split
  · unfold removeSpan
    split
    · exact .refl s
    · split
      · exact .refl s
      · exact State.Handles.foldl _ (fun _ _ => State.removeBelt_handles ..) _ _
  · exact .refl s

theorem removeLane_handles (l : Lane) (s : State) : s.Handles (removeLane l s).1 := by
  unfold removeLane
  split
  · exact .refl s
  · split
    · exact State.removeFronts_handles ..
    · exact .refl s

theorem takeLineClear_handles (ps : List Byte) (s : State) : s.Handles (takeLineClear ps s).1 := by
  have emptied : s.Handles s.emptied := State.Handles.clear.trans (.quiet rfl rfl rfl rfl)
  unfold takeLineClear
  split
  · exact .refl s
  · split
    · exact (emptied.trans (.of_evolves (State.reopenAll_evolves _))).trans (State.raise_handles ..)
    · exact .refl s

/-- The marks alone change. -/
theorem takeMarksSet_handles (ps : List Byte) (s : State) : s.Handles (takeMarksSet ps s).1 := by
  unfold takeMarksSet
  split
  · unfold setMarks
    split
    · exact .refl s
    · split
      · exact .quiet rfl rfl rfl rfl
      · exact .refl s
  · exact .refl s

/-- The book alone changes, and the bins it is bound to. -/
theorem takeOrderPut_handles (ps : List Byte) (s : State) : s.Handles (takeOrderPut ps s).1 := by
  unfold takeOrderPut
  split
  · rename_i o _
    unfold putOrder
    split
    · exact .refl s
    · split
      · exact .refl s
      · split
        · have joined : s.Handles { s with book := s.book ++ [o] } := .quiet rfl rfl rfl rfl
          exact (joined.trans (State.raise_handles ..)).trans (.of_evolves (State.runArbiter_evolves _))
        · exact .refl s
  · exact .refl s

theorem takeOrderRetire_handles (ps : List Byte) (s : State) : s.Handles (takeOrder retireOrder ps s).1 := by
  have retired : ∀ o, s.Handles (retireOrder o s).1 := by
    intro o
    unfold retireOrder
    split <;> exact .quiet rfl rfl rfl rfl
  unfold takeOrder
  split
  · unfold onOrder
    split
    · exact .refl s
    · split
      · exact retired _
      · exact .refl s
  · exact .refl s

theorem takeRoleSet_handles (ps : List Byte) (s : State) : s.Handles (takeRoleSet ps s).1 := by
  unfold takeRoleSet
  split
  · split
    · unfold setRole
      split
      · exact .refl s
      · split
        · exact .refl s
        · exact .quiet rfl rfl rfl rfl
    · exact .refl s
    · exact .refl s
  · exact .refl s

/-- Each limit is a write of one field, and the work it sets off. -/
theorem State.applyLimit_handles {s t : State} {ident v : Nat} (applied : s.applyLimit ident v = some t) :
    s.Handles t := by
  have guarded : ∀ {c : Prop} [Decidable c] {u : State}, (if c then some u else none) = some t → u = t := by
    intro c _ u taken
    split at taken
    · exact Option.some.inj taken
    · cases taken
  unfold State.applyLimit at applied
  split at applied
  case h_1 =>
    obtain ⟨m, -, rfl⟩ := Option.map_eq_some_iff.mp applied
    exact State.Handles.after_write (State.arbitrate_handles _)
  case h_16 => cases applied
  all_goals obtain rfl := guarded applied
  case h_2 => exact State.Handles.after_write (State.arbitrate_handles _)
  case h_3 => exact State.Handles.after_write (State.testTransit_handles _)
  case h_5 => exact State.Handles.after_write (State.testCutOff_handles _)
  case h_14 => exact State.Handles.after_write (State.testReject_handles _)
  case h_15 => exact State.Handles.after_write (State.testRunout_handles _)
  all_goals exact .quiet rfl rfl rfl rfl

/-! ## Every meaning is made of moves -/

theorem Cmd.rule_handles (c : Cmd) (ps : List Byte) (s : State) : s.Handles (Cmd.rule c ps s).1 := by
  cases c with
  | roleSet => exact takeRoleSet_handles ps s
  | marksSet => exact takeMarksSet_handles ps s
  | orderPut => exact takeOrderPut_handles ps s
  | orderRetire => exact takeOrderRetire_handles ps s
  | runoutCleared =>
    exact State.Handles.after_write (State.setHolds_handles ..)
  | rejectCleared =>
    exact State.Handles.after_write (State.setHolds_handles ..)
  | hold => exact State.setHolds_handles ..
  | resume => exact State.setHolds_handles ..
  | lineClear => exact takeLineClear_handles ps s
  | removeStrip => exact takeRemoveStrip_handles ps s
  | removeSpan => exact takeRemoveSpan_handles ps s
  | removeLane => exact takeLane_handles removeLane_handles ps s
  | laneStart => exact takeLane_handles laneStart_handles ps s
  | laneStop => exact takeLane_handles laneStop_handles ps s
  | laneHold => exact takeLane_handles laneHold_handles ps s
  | laneRun => exact takeLane_handles laneRun_handles ps s
  | laneRecipe => exact takeLaneRecipe_handles ps s
  | toolReady => exact takeLane_handles toolReady_handles ps s
  | verdict => exact takeGrading_handles _ ps s
  | gradeEntry => exact takeGrading_handles _ ps s
  | binService => exact .of_evolves (takeBinService_evolves ps s)
  | mapCommit => exact .of_evolves (takeMapCommit_evolves ps s)
  | gradeMode => exact .of_evolves (takeGradeMode_evolves ps s)
  | orderSuspend => exact .of_evolves (takeOrder_evolves suspendOrder_evolves ps s)
  | orderResume => exact .of_evolves (takeOrder_evolves resumeOrder_evolves ps s)
  | orderAdd => exact .of_evolves (takeOrderAdd_evolves ps s)
  | orderCancel => exact .of_evolves (takeOrder_evolves cancelOrder_evolves ps s)
  | binCleared => exact .of_evolves (takeBinCleared_evolves ps s)
  | sampleSet => exact .of_evolves (takeSampleSet_evolves ps s)
  | _ => exact .refl s

theorem group_handles (g : Grouped) (listed : g ∈ [limitsGrouped, laneConfigGrouped, channelSetGrouped, mapGrouped])
    (i : Incremental) (bs : List Byte) (s : State) : s.Handles (g.apply i bs s).1 := by
  simp only [List.mem_cons, List.not_mem_nil, or_false] at listed
  rcases listed with rfl | rfl | rfl | rfl
  · show s.Handles (limitsApply i bs s).1
    unfold limitsApply
    split
    · exact applyOrFail_handles (fun _ => State.applyLimit_handles) i
    · exact .refl s
  · exact laneConfigApply_handles i bs s
  · exact .of_evolves (channelSetApply_evolves i bs s)
  · exact .of_evolves (mapApply_evolves i bs s)

theorem State.takeDue_handles (s : State) (d : Due) (time : d.byTime = true → d ∈ s.dueNow) :
    s.Handles (s.takeDue d) := by
  cases d with
  | deadline n => exact State.deadlineArrival_handles s n
  | trim n => exact State.trimArrival_handles s n
  | sort n k => exact State.sortArrival_handles s n k
  | runout n k => exact State.runoutArrival_handles s n k
  | fire c => exact State.fireRequest_handles s c
  | transit => exact State.testTransit_handles s
  | gap =>
    show s.Handles (if s.gapDue then s.openGap else s)
    split
    · exact State.openGap_handles s
    · exact .refl s
  | cutOff => exact State.testCutOff_handles s
  | window b n k => exact State.windowEnds_handles s b n k
  | delay l => exact State.enterRun_handles s l
  | idle l =>
    have runs := (State.idle_due s l).mp (time rfl)
    exact State.enterLane_handles fun _ => .inr (.inr (by rw [runs]; rfl))
  | releaseEnd l => exact State.releaseEnds_handles s l
  | outfeedEnd l => exact State.outfeedEnds_handles s l
  | pulseEnd c => exact .quiet rfl rfl rfl rfl
  | recoveryEnd c => exact .quiet rfl rfl rfl rfl

/-- An invariant that every move keeps, and that holds after power-on, is kept by every meaning. -/
theorem Kept.of_handles {P : State → Prop} (moves : ∀ {s t : State}, s.Handles t → P s → P t)
    (powerUp : ∀ (s : State) (levels : InputLevels), P (s.powerUp levels)) : Kept P where
  port _ _ _ _ := moves (.quiet rfl rfl rfl rfl)
  rule c ps s := moves (Cmd.rule_handles c ps s)
  group g listed s i bs := moves (group_handles g listed i bs s)
  hand s p h := moves (.of_evolves (State.releaseHand_evolves s p h))
  due s d time := moves (State.takeDue_handles s d time)
  choice _ := moves (.quiet rfl rfl rfl rfl)
  tick _ _ := moves .tick
  powerUp s levels _ := powerUp s levels
  blankReadyActive s l := moves (State.blankReadyActive_handles s l)
  blankReadyInactive s l := moves (State.blankReadyInactive_handles s l)
  exitEye s l := moves (State.exitEye_handles s l)
  leadEdge s := moves (State.leadEdge_handles s)
  trailEdge s := moves (State.trailEdge_handles s)
  payBacklash _ := moves (.quiet rfl rfl rfl rfl)
  advance s := moves (State.advance_handles s)
  reverse _ := moves (.quiet rfl rfl rfl rfl)
  dropPulse s b := moves (State.dropPulse_handles s b)
  openGuard s := moves (State.openGuard_handles s)
  closeGuard _ := moves (.quiet rfl rfl rfl rfl)
  beltRun _ _ := moves (.quiet rfl rfl rfl rfl)

end Sys2Proof.Machine

/-! The reserve of the pool and the laws of the lanes, move by move. -/

namespace Sys2Proof.Machine

/-! ## The lanes' laws -/

theorem State.laneLawful_congr {s t : State} {l : Lane} (queue : t.queue l = s.queue l) (lane : t.lane l = s.lane l)
    (h : s.laneLawful l) : t.laneLawful l := by
  unfold State.laneLawful
  rwa [queue, lane]

/-- A change of one lane's queue and controller leaves the other lane lawful. -/
theorem State.lanesLawful_of_lane {s t : State} {l : Lane} (h : s.lanesLawful)
    (others : ∀ m, m ≠ l → t.queue m = s.queue m ∧ t.lane m = s.lane m) (own : t.laneLawful l) : t.lanesLawful := by
  intro m
  by_cases same : m = l
  · exact same ▸ own
  · exact State.laneLawful_congr (others m same).1 (others m same).2 (h m)

theorem State.queue_modLane (s : State) (l m : Lane) (f : LaneCtl → LaneCtl) : (s.modLane l f).queue m = s.queue m := rfl

theorem State.lane_setQueue (s : State) (l m : Lane) (q : List StripRec) : (s.setQueue l q).lane m = s.lane m := rfl

theorem State.lanesLawful_modLane {s : State} {l : Lane} {f : LaneCtl → LaneCtl}
    (own : (s.queue l).length ≤ (f (s.lane l)).limits.capacity ∧
      ((f (s.lane l)).state.stopped = true → s.queue l = []) ∧
      ((f (s.lane l)).idle.isSome = true → (f (s.lane l)).state = .run ∧ s.queue l = [])) (h : s.lanesLawful) :
    (s.modLane l f).lanesLawful := by
  refine State.lanesLawful_of_lane h (l := l) (fun m other => ⟨rfl, ?_⟩) ?_
  · rw [State.lane_modLane, if_neg other]
  · unfold State.laneLawful
    rwa [State.lane_modLane, if_pos rfl]

/-- A queue that is no longer than it was, and empty where it was empty, keeps its lane lawful. -/
theorem State.lanesLawful_setQueue {s t : State} {l : Lane} {q : List StripRec} (h : s.lanesLawful)
    (lanes : t.lanes = s.lanes) (queues : t.track.queues = s.track.queues.set l q)
    (shorter : q.length ≤ (s.queue l).length) : t.lanesLawful := by
  have queue : ∀ m, t.queue m = if m = l then q else s.queue m := fun m => by
    rw [State.queue, queues, PerLane.get_set, State.queue]
  have lane : ∀ m, t.lane m = s.lane m := fun m => congrArg (PerLane.get · m) lanes
  have empty : s.queue l = [] → q = [] := fun e =>
    List.eq_nil_of_length_eq_zero (Nat.le_zero.mp (by simpa [e] using shorter))
  refine State.lanesLawful_of_lane h (l := l) (fun m other => ⟨?_, lane m⟩) ?_
  · rw [queue, if_neg other]
  · obtain ⟨capacity, stopped, idle⟩ := h l
    unfold State.laneLawful
    rw [queue, if_pos rfl, lane]
    exact ⟨shorter.trans capacity, fun still => empty (stopped still), fun runs => ⟨(idle runs).1, empty (idle runs).2⟩⟩

theorem State.canRelease_wants {s : State} {l : Lane} (can : s.canRelease l = true) :
    (s.lane l).state = .run ∧ (s.queue l).length < (s.lane l).limits.capacity := by
  simp only [State.canRelease, State.wantsRelease, Bool.and_eq_true, beq_iff_eq, decide_eq_true_eq] at can
  obtain ⟨⟨⟨⟨run, -⟩, room⟩, -⟩, -⟩ := can
  exact ⟨run, room⟩

theorem State.traceEntry_frame (s : State) (traced : Bool) (kind : TraceKind) (d k : Nat) :
    s.unchangedBut [.audit] (s.traceEntry traced kind d k) := (State.traceEntry_evolves ..).frame

theorem State.queue_release (s : State) (l m : Lane) :
    (s.release l).queue m = if m = l then s.queue l ++ [s.newStrip l] else s.queue m := by
  unfold State.release
  rw [State.queue, (State.traceEntry_frame ..).track]
  exact State.queue_setQueue ..

theorem State.lane_release (s : State) (l m : Lane) :
    (s.release l).lane m = if m = l then (s.lane l).atRelease else s.lane m := by
  unfold State.release
  rw [State.lane, (State.traceEntry_frame ..).lanes]
  exact State.lane_modLane ..

/-- R36: the queue of a lane that releases has room for the blank, and its idle timer stops. -/
theorem State.lanesLawful_release {s : State} {l : Lane} (can : s.canRelease l = true) (h : s.lanesLawful) :
    (s.release l).lanesLawful := by
  obtain ⟨run, room⟩ := State.canRelease_wants can
  refine State.lanesLawful_of_lane h (l := l) (fun m other => ?_) ?_
  · rw [State.queue_release, State.lane_release, if_neg other, if_neg other]
    exact ⟨rfl, rfl⟩
  · unfold State.laneLawful
    rw [State.queue_release, State.lane_release, if_pos rfl, if_pos rfl]
    refine ⟨?_, fun stopped => ?_, nofun⟩
    · show _ ≤ (s.lane l).limits.capacity
      rw [List.length_append, List.length_singleton]
      exact room
    · rw [show (s.lane l).atRelease.state = (s.lane l).state from rfl, run] at stopped
      cases stopped

/-- R39: an idle lane stands in RUN with an empty queue. -/
theorem State.isIdle_run {s : State} {l : Lane} (idle : s.isIdle l = true) :
    (s.lane l).state = .run ∧ s.queue l = [] := by
  simp only [State.isIdle, Bool.and_eq_true, beq_iff_eq, List.isEmpty_iff] at idle
  obtain ⟨⟨⟨run, -⟩, empty⟩, -⟩ := idle
  exact ⟨run, empty⟩

theorem State.lane_countDown (s : State) (us : Nat) (l : Lane) :
    ∃ ms, (s.countDown us).lane l = (s.lane l).countDown ms := by
  cases l <;> exact ⟨_, rfl⟩

theorem State.lanesLawful_of_handles {s t : State} (moves : s.Handles t) (h : s.lanesLawful) : t.lanesLawful := by
  induction moves with
  | quiet queues transit belt lanes =>
    exact fun l => State.laneLawful_congr (congrArg (PerLane.get · l) queues) (congrArg (PerLane.get · l) lanes) (h l)
  | trans _ _ ih ih' => exact ih' (ih h)
  | release can => exact State.lanesLawful_release can h
  | @enter s l st stopped =>
    obtain ⟨capacity, still, idle⟩ := h l
    refine State.lanesLawful_modLane ⟨capacity, fun halted => ?_, nofun⟩ h
    rcases stopped halted with empty | before | runs
    · exact empty
    · exact still before
    · exact (idle runs).2
  | @lane s l f state idle capacity =>
    obtain ⟨room, still, runs⟩ := h l
    refine State.lanesLawful_modLane ⟨?_, fun halted => still (state ▸ halted), fun timed => ?_⟩ h
    · rcases capacity with same | off
      · exact same ▸ room
      · rw [still (by rw [off]; rfl)]
        exact Nat.zero_le _
    · rw [state]
      exact runs (idle timed)
  | @idle s l f idle state capacity =>
    obtain ⟨run, empty⟩ := State.isIdle_run idle
    obtain ⟨room, still, -⟩ := h l
    exact State.lanesLawful_modLane ⟨capacity ▸ room, fun _ => empty, fun _ => ⟨state.trans run, empty⟩⟩ h
  | @tick s us =>
    intro l
    obtain ⟨ms, counted⟩ := s.lane_countDown us l
    obtain ⟨room, still, runs⟩ := h l
    unfold State.laneLawful
    rw [counted]
    exact ⟨room, still, fun timed => runs (by simpa [LaneCtl.countDown] using timed)⟩
  | grant front =>
    exact State.lanesLawful_setQueue h rfl rfl (by rw [front, List.length_cons]; omega)
  | exits front =>
    exact State.lanesLawful_setQueue h rfl rfl (by rw [front, List.length_cons, List.length_cons])
  | leaves front =>
    exact State.lanesLawful_setQueue h rfl rfl (by rw [front, List.length_cons]; omega)
  | clear =>
    intro l
    have empty : ∀ u : State, (State.queue { u with track := u.track.cleared } l) = [] := fun _ => by cases l <;> rfl
    obtain ⟨-, -, runs⟩ := h l
    refine ⟨?_, fun _ => empty _, fun timed => ⟨(runs timed).1, empty _⟩⟩
    rw [empty]
    exact Nat.zero_le _
  | _ => exact fun l => State.laneLawful_congr rfl rfl (h l)

theorem State.lane_powerOn (levels : InputLevels) (l : Lane) :
    ∃ ready, (State.powerOn levels).lane l = LaneCtl.powerOn ready := by
  cases l <;> exact ⟨_, rfl⟩

theorem State.powerOn_lanesLawful (levels : InputLevels) : (State.powerOn levels).lanesLawful := by
  intro l
  have empty : (State.powerOn levels).queue l = [] := by cases l <;> rfl
  obtain ⟨ready, stands⟩ := State.lane_powerOn levels l
  unfold State.laneLawful
  rw [empty, stands]
  exact ⟨Nat.zero_le _, fun _ => rfl, nofun⟩

/-- Settles O34: every meaning is made of moves, and each move keeps both lanes lawful. -/
theorem stepKeepsTheLanesLawful : Obligations.StepKeepsTheLanesLawful :=
  fun _ _ h stepped => (Kept.of_handles State.lanesLawful_of_handles
    fun _ levels => State.powerOn_lanesLawful levels).step (fun _ _ h => h) h stepped

/-! ## The reserve -/

/-- A state that needs no more records, carries no other numbers and holds no longer plans is reserved as well. -/
theorem State.reserved_of {s t : State}
    (room : t.allocated + 3 * t.uncutStrips ≤ s.allocated + 3 * s.uncutStrips)
    (numbers : (t.strips.map StripRec.number).Subperm (s.strips.map StripRec.number))
    (plans : ∀ r ∈ t.strips, ∀ p ∈ r.plan, p.segments.length ≤ 4 ∨ ∃ x ∈ s.strips, p ∈ x.plan) (h : s.reserved) :
    t.reserved := by
  obtain ⟨bound, distinct, short⟩ := h
  obtain ⟨l, same, sub⟩ := numbers
  refine ⟨room.trans bound, same.nodup_iff.mp (distinct.sublist sub), fun r inTrack p inPlan => ?_⟩
  rcases plans r inTrack p inPlan with few | ⟨x, was, inPlan⟩
  · exact few
  · exact short x was p inPlan

theorem State.beltStrips_sublist {s t : State} (belt : t.track.belt.Sublist s.track.belt) :
    t.beltStrips.Sublist s.beltStrips := belt.filterMap _

theorem State.strips_sublist {s t : State} (a : t.track.queues.a.Sublist s.track.queues.a)
    (b : t.track.queues.b.Sublist s.track.queues.b) (transit : t.track.transit.Sublist s.track.transit)
    (belt : t.track.belt.Sublist s.track.belt) : t.strips.Sublist s.strips :=
  ((a.append b).append transit).append (State.beltStrips_sublist belt)

/-- Records leave, and none comes. -/
theorem State.reserved_of_sublist {s t : State} (h : s.reserved) (a : t.track.queues.a.Sublist s.track.queues.a)
    (b : t.track.queues.b.Sublist s.track.queues.b) (transit : t.track.transit.Sublist s.track.transit)
    (belt : t.track.belt.Sublist s.track.belt) : t.reserved := by
  have strips := State.strips_sublist a b transit belt
  refine State.reserved_of ?_ (strips.map _).subperm (fun r inTrack p inPlan => .inr ⟨r, strips.subset inTrack, inPlan⟩) h
  have la := a.length_le
  have lb := b.length_le
  have lt := transit.length_le
  have lx := belt.length_le
  have ls := strips.length_le
  unfold State.allocated State.uncutStrips
  omega

theorem State.allocated_eq (s : State) :
    s.allocated = s.track.queues.a.length + s.track.queues.b.length + s.track.transit.length + s.track.belt.length := rfl

theorem State.uncutStrips_eq (s : State) : s.uncutStrips =
    s.track.queues.a.length + s.track.queues.b.length + s.track.transit.length + s.beltStrips.length := by
  simp [State.uncutStrips, State.strips, Nat.add_assoc]

theorem State.mem_strips (s : State) (r : StripRec) : r ∈ s.strips ↔
    r ∈ s.track.queues.a ∨ r ∈ s.track.queues.b ∨ r ∈ s.track.transit ∨ r ∈ s.beltStrips := by
  simp [State.strips]

theorem State.beltStrips_map_strip (f : BeltRec → BeltRec) (g : StripRec → StripRec)
    (strip : ∀ r, (f (.strip r)).strip? = some (g r)) (piece : ∀ r, (f (.piece r)).strip? = none) (xs : List BeltRec) :
    (xs.map f).filterMap BeltRec.strip? = (xs.filterMap BeltRec.strip?).map g := by
  induction xs with
  | nil => rfl
  | cons x xs ih =>
    cases x with
    | strip r =>
      rw [List.map_cons, List.filterMap_cons_some (strip r), ih]
      rfl
    | piece r =>
      rw [List.map_cons, List.filterMap_cons_none (piece r), ih]
      rfl

theorem State.beltStrips_modBeltStrip (s : State) (n : StripNum) (f : StripRec → StripRec) :
    (s.modBeltStrip n f).beltStrips = s.beltStrips.map fun r => if r.number = n then f r else r := by
  refine State.beltStrips_map_strip _ _ (fun r => ?_) (fun _ => rfl) _
  dsimp only
  split <;> rfl

theorem State.beltStrips_modPieces (s : State) (test : PieceRec → Bool) (f : PieceRec → PieceRec) :
    (s.modPieces test f).beltStrips = s.beltStrips := by
  refine (State.beltStrips_map_strip _ id (fun r => rfl) (fun r => ?_) _).trans (List.map_id _)
  dsimp only
  split <;> rfl

theorem State.beltStrips_replaceStrip (s : State) (n : StripNum) (qs : List PieceRec) :
    (s.replaceStrip n qs).beltStrips = s.beltStrips.filter fun r => r.number != n := by
  unfold State.replaceStrip State.beltStrips
  dsimp only
  induction s.track.belt with
  | nil => rfl
  | cons x xs ih =>
    have none : (qs.map BeltRec.piece).filterMap BeltRec.strip? = [] := by
      simp [List.filterMap_map, Function.comp_def, BeltRec.strip?]
    rw [List.flatMap_cons, List.filterMap_append, ih]
    cases x with
    | strip r =>
      rw [List.filterMap_cons_some (show BeltRec.strip? (.strip r) = some r from rfl), List.filter_cons]
      by_cases same : r.number = n
      · simp only [same, if_true, none, List.nil_append, bne_self_eq_false, Bool.false_eq_true, if_false]
      · simp only [same, if_false, bne_iff_ne.mpr same, if_true]
        rfl
    | piece r =>
      rw [List.filterMap_cons_none (show BeltRec.strip? (.piece r) = _ from rfl)]
      rfl

theorem State.belt_replaceStrip_length (s : State) (n : StripNum) (qs : List PieceRec) :
    (s.replaceStrip n qs).track.belt.length + s.beltStrips.countP (fun r => r.number == n) =
      s.track.belt.length + s.beltStrips.countP (fun r => r.number == n) * qs.length := by
  unfold State.replaceStrip State.beltStrips
  dsimp only
  induction s.track.belt with
  | nil => simp
  | cons x xs ih =>
    rw [List.flatMap_cons, List.length_append]
    cases x with
    | strip r =>
      rw [List.filterMap_cons_some (show BeltRec.strip? (.strip r) = some r from rfl), List.countP_cons]
      by_cases same : r.number = n
      · simp only [same, if_true, BEq.rfl, List.length_map, List.length_cons, Nat.add_mul]
        omega
      · simp only [same, if_false, beq_iff_eq, List.length_cons, List.length_nil, Nat.add_zero]
        omega
    | piece r =>
      rw [List.filterMap_cons_none (show BeltRec.strip? (.piece r) = _ from rfl)]
      simp only [List.length_cons, List.length_nil]
      omega

/-- R9: no two strips of the belt list carry one number. -/
theorem State.countP_beltStrips_le {s : State} (distinct : (s.strips.map StripRec.number).Nodup) (n : StripNum) :
    s.beltStrips.countP (fun r => r.number == n) ≤ 1 := by
  have once := List.nodup_iff_count_le_one.mp distinct n
  rw [State.strips, List.map_append, List.count_append, List.count_eq_countP, List.countP_map] at once
  rw [List.count_eq_countP, List.countP_map] at once
  have same : (s.beltStrips.countP fun r => r.number == n) =
      s.beltStrips.countP ((fun x => x == n) ∘ StripRec.number) := rfl
  omega

/-- R10, R113: a strip gives back itself and its reserve, and takes up to four pieces. -/
theorem State.reserved_replaceStrip {s : State} {n : StripNum} {qs : List PieceRec} (few : qs.length ≤ 4)
    (h : s.reserved) : (s.replaceStrip n qs).reserved := by
  have once := State.countP_beltStrips_le h.2.1 n
  have grown := s.belt_replaceStrip_length n qs
  have kept := s.beltStrips_replaceStrip n qs
  have left : (s.beltStrips.filter fun r => r.number != n).length + s.beltStrips.countP (fun r => r.number == n) =
      s.beltStrips.length := by
    have split := List.length_eq_countP_add_countP (l := s.beltStrips) fun r => r.number == n
    rw [← List.countP_eq_length_filter]
    have same : (s.beltStrips.countP fun r => r.number != n) = s.beltStrips.countP fun r => ¬ (r.number == n) = true :=
      List.countP_congr fun r _ => by simp
    omega
  have sub : (s.replaceStrip n qs).strips.Sublist s.strips := by
    unfold State.strips
    rw [kept]
    exact (List.Sublist.refl _).append List.filter_sublist
  refine State.reserved_of ?_ (sub.map _).subperm (fun r inTrack p inPlan => .inr ⟨r, sub.subset inTrack, inPlan⟩) h
  rw [State.allocated_eq, State.uncutStrips_eq, State.allocated_eq, State.uncutStrips_eq, kept]
  have track : (s.replaceStrip n qs).track.queues = s.track.queues ∧
      (s.replaceStrip n qs).track.transit = s.track.transit := ⟨rfl, rfl⟩
  rw [track.1, track.2]
  rcases Nat.le_one_iff_eq_zero_or_eq_one.mp once with zero | one
  · rw [zero] at grown left
    omega
  · rw [one] at grown left
    omega

/-- R11: the admission reserve holds at a release. -/
theorem State.canRelease_reserve {s : State} {l : Lane} (can : s.canRelease l = true) :
    3 * s.uncutStrips + 4 ≤ s.freeRecords := by
  simp only [State.canRelease, State.reserveHolds, Bool.and_eq_true, decide_eq_true_eq] at can
  exact can.2

theorem State.track_release (s : State) (l : Lane) :
    (s.release l).track.queues = s.track.queues.set l (s.queue l ++ [s.newStrip l]) ∧
    (s.release l).track.transit = s.track.transit ∧ (s.release l).track.belt = s.track.belt := by
  unfold State.release
  rw [(State.traceEntry_frame ..).track]
  exact ⟨rfl, rfl, rfl⟩

/-- R36: a release adds one strip record to the track. -/
theorem State.strips_release (s : State) (l : Lane) : (s.release l).strips.Perm (s.newStrip l :: s.strips) := by
  obtain ⟨queues, transit, belt⟩ := s.track_release l
  unfold State.strips State.beltStrips
  rw [queues, transit, belt]
  cases l
  · simp [PerLane.set, State.queue, PerLane.get]
  · simpa [PerLane.set, State.queue, PerLane.get] using
      (List.perm_middle (a := s.newStrip .b) (l₁ := s.track.queues.a ++ s.track.queues.b)
        (l₂ := s.track.transit ++ s.track.belt.filterMap BeltRec.strip?))

theorem State.allocated_release (s : State) (l : Lane) : (s.release l).allocated = s.allocated + 1 := by
  obtain ⟨queues, transit, belt⟩ := s.track_release l
  rw [State.allocated_eq, State.allocated_eq, queues, transit, belt]
  cases l <;> simp [PerLane.set, State.queue, PerLane.get] <;> omega

theorem State.uncutStrips_release (s : State) (l : Lane) : (s.release l).uncutStrips = s.uncutStrips + 1 :=
  (s.strips_release l).length_eq

/-- R9, R11: a release takes one record and its reserve of the four it finds, with a number that none carries. -/
theorem State.reserved_release {s : State} {l : Lane} (can : s.canRelease l = true) (h : s.reserved) :
    (s.release l).reserved := by
  have reserve := State.canRelease_reserve can
  obtain ⟨bound, distinct, short⟩ := h
  obtain ⟨_, _, -, fresh, -⟩ := s.newNumber_first (by omega)
  have perm := s.strips_release l
  refine ⟨?_, ?_, fun r inTrack => ?_⟩
  · rw [s.allocated_release, s.uncutStrips_release]
    unfold State.freeRecords at reserve
    omega
  · refine (perm.map StripRec.number).nodup_iff.mpr (List.nodup_cons.mpr ⟨fun carried => ?_, distinct⟩)
    have inUse : s.carried s.newNumber = true := (s.carried_iff _).mpr (List.mem_append_left _ carried)
    rw [fresh] at inUse
    cases inUse
  · rcases List.mem_cons.mp (perm.subset inTrack) with rfl | was
    · exact nofun
    · exact short r was

theorem State.reserved_congr {s t : State} (queues : t.track.queues = s.track.queues)
    (transit : t.track.transit = s.track.transit) (belt : t.track.belt = s.track.belt) (h : s.reserved) :
    t.reserved :=
  State.reserved_of_sublist h (queues ▸ .refl _) (queues ▸ .refl _) (transit ▸ .refl _) (belt ▸ .refl _)

/-- One strip record changes its place or its state. -/
theorem State.reserved_of_moved {s t : State} {x y : StripRec} {others : List StripRec} (h : s.reserved)
    (records : t.allocated = s.allocated) (before : s.strips.Perm (x :: others)) (after : t.strips.Perm (y :: others))
    (number : y.number = x.number) (plan : y.plan = x.plan) : t.reserved := by
  refine State.reserved_of ?_ ?_ (fun r inTrack p inPlan => .inr ?_) h
  · rw [records, State.uncutStrips, State.uncutStrips, before.length_eq, after.length_eq, List.length_cons,
      List.length_cons]
  · have same : (y :: others).map StripRec.number = (x :: others).map StripRec.number := by
      rw [List.map_cons, List.map_cons, number]
    exact ((after.map _).trans (same ▸ (before.map _).symm)).subperm
  · rcases List.mem_cons.mp (after.subset inTrack) with rfl | other
    · exact ⟨x, before.symm.subset List.mem_cons_self, plan ▸ inPlan⟩
    · exact ⟨r, before.symm.subset (List.mem_cons_of_mem _ other), inPlan⟩

theorem State.strips_setQueue_cons (s : State) (l : Lane) (r : StripRec) (rest : List StripRec) :
    (s.setQueue l (r :: rest)).strips.Perm (r :: (s.setQueue l rest).strips) := by
  cases l
  · exact .refl _
  · simp [State.strips, State.beltStrips, State.setQueue, PerLane.set]

theorem State.setQueue_queue (s : State) (l : Lane) : s.setQueue l (s.queue l) = s := by cases l <;> rfl

theorem State.strips_of_front {s : State} {l : Lane} {r : StripRec} {rest : List StripRec}
    (front : s.queue l = r :: rest) : s.strips.Perm (r :: (s.setQueue l rest).strips) := by
  have moved := s.strips_setQueue_cons l r rest
  rwa [← front, State.setQueue_queue] at moved

theorem State.allocated_setQueue_cons (s : State) (l : Lane) (r : StripRec) (rest : List StripRec) :
    (s.setQueue l (r :: rest)).allocated = (s.setQueue l rest).allocated + 1 := by
  rw [State.allocated_eq, State.allocated_eq]
  cases l <;> simp only [State.setQueue, PerLane.set, List.length_cons] <;> omega

theorem State.allocated_of_front {s : State} {l : Lane} {r : StripRec} {rest : List StripRec}
    (front : s.queue l = r :: rest) : s.allocated = (s.setQueue l rest).allocated + 1 := by
  rw [← s.allocated_setQueue_cons l r rest, ← front, State.setQueue_queue]

/-- R58: the granted record is the last of the transit list. -/
theorem State.strips_toTransit (s : State) (l : Lane) (r : StripRec) (rest : List StripRec) :
    (s.toTransit l r rest).strips.Perm (s.granted r :: (s.setQueue l rest).strips) := by
  have lists : (s.toTransit l r rest).strips = (s.setQueue l rest).track.queues.a ++ (s.setQueue l rest).track.queues.b ++
      (s.track.transit ++ [s.granted r]) ++ s.beltStrips := rfl
  rw [lists, ← List.append_assoc, List.append_assoc _ [_]]
  exact List.perm_middle

theorem State.allocated_toTransit (s : State) (l : Lane) (r : StripRec) (rest : List StripRec) :
    (s.toTransit l r rest).allocated = (s.setQueue l rest).allocated + 1 := by
  have records : (s.toTransit l r rest).allocated = (s.setQueue l rest).track.queues.a.length +
      (s.setQueue l rest).track.queues.b.length + (s.track.transit ++ [s.granted r]).length + s.track.belt.length := rfl
  rw [records, State.allocated_eq, List.length_append, List.length_singleton]
  show _ = _ + s.track.transit.length + s.track.belt.length + 1
  omega

theorem State.strips_transit (s : State) {r : StripRec} {rest : List StripRec} (oldest : s.track.transit = r :: rest) :
    s.strips.Perm (r :: State.strips { s with track.transit := rest }) := by
  unfold State.strips
  rw [oldest, List.append_assoc _ (r :: rest)]
  exact List.perm_middle.trans (.of_eq (congrArg _ (List.append_assoc ..).symm))

/-- R64: the record at the entry eye is the last strip of the belt list. -/
theorem State.strips_lead (s : State) (r : StripRec) (rest : List StripRec) :
    (State.strips { s with track.transit := rest, track.belt := s.track.belt ++ [.strip (s.led r)] }).Perm
      (s.led r :: State.strips { s with track.transit := rest }) := by
  unfold State.strips State.beltStrips
  dsimp only
  rw [List.filterMap_append, ← List.append_assoc]
  exact List.perm_append_singleton ..

theorem PerLane.set_sublist {q : PerLane (List StripRec)} {l : Lane} {r : StripRec} {rest : List StripRec}
    (front : q.get l = r :: rest) : (q.set l rest).a.Sublist q.a ∧ (q.set l rest).b.Sublist q.b := by
  cases l
  · exact ⟨by rw [show q.a = r :: rest from front]; exact List.sublist_cons_self .., .refl _⟩
  · exact ⟨.refl _, by rw [show q.b = r :: rest from front]; exact List.sublist_cons_self ..⟩

/-- R84: a strip record that changes but for its number, and takes no plan beyond four segments. -/
theorem State.reserved_modBeltStrip {s : State} {n : StripNum} {f : StripRec → StripRec}
    (number : ∀ r, (f r).number = r.number) (plan : ∀ r, ∀ p ∈ (f r).plan, p ∈ r.plan ∨ p.segments.length ≤ 4)
    (h : s.reserved) : (s.modBeltStrip n f).reserved := by
  have belt := s.beltStrips_modBeltStrip n f
  refine State.reserved_of ?_ ?_ (fun x inTrack p inPlan => ?_) h
  · rw [State.allocated_eq, State.uncutStrips_eq, State.allocated_eq, State.uncutStrips_eq, belt]
    simp [State.modBeltStrip]
  · have same : (s.beltStrips.map fun r => if r.number = n then f r else r).map StripRec.number =
        s.beltStrips.map StripRec.number := by
      rw [List.map_map]
      refine List.map_congr_left fun r _ => ?_
      simp only [Function.comp_apply]
      split
      · exact number r
      · rfl
    have others : (s.modBeltStrip n f).track.queues = s.track.queues ∧
        (s.modBeltStrip n f).track.transit = s.track.transit := ⟨rfl, rfl⟩
    have numbers : (s.modBeltStrip n f).strips.map StripRec.number = s.strips.map StripRec.number := by
      rw [State.strips, State.strips, belt, List.map_append, same, List.map_append (l₂ := s.beltStrips), others.1,
        others.2]
    exact numbers ▸ (List.Perm.refl _).subperm
  · rw [State.mem_strips, belt] at inTrack
    rcases inTrack with inA | inB | inTransit | inBelt
    · exact .inr ⟨x, (State.mem_strips ..).mpr (.inl inA), inPlan⟩
    · exact .inr ⟨x, (State.mem_strips ..).mpr (.inr (.inl inB)), inPlan⟩
    · exact .inr ⟨x, (State.mem_strips ..).mpr (.inr (.inr (.inl inTransit))), inPlan⟩
    · obtain ⟨r, was, rfl⟩ := List.mem_map.mp inBelt
      have inTrack : r ∈ s.strips := (State.mem_strips ..).mpr (.inr (.inr (.inr was)))
      split at inPlan
      · rcases plan r p inPlan with kept | few
        · exact .inr ⟨r, inTrack, kept⟩
        · exact .inl few
      · exact .inr ⟨r, inTrack, inPlan⟩

theorem State.reserved_of_handles {s t : State} (moves : s.Handles t) (h : s.reserved) : t.reserved := by
  induction moves with
  | quiet queues transit belt lanes => exact State.reserved_congr queues transit belt h
  | trans _ _ ih ih' => exact ih' (ih h)
  | release can => exact State.reserved_release can h
  | enter => exact State.reserved_congr rfl rfl rfl h
  | lane => exact State.reserved_congr rfl rfl rfl h
  | idle => exact State.reserved_congr rfl rfl rfl h
  | tick => exact State.reserved_congr rfl rfl rfl h
  | @grant s l r rest front =>
    refine State.reserved_of_moved h ?_ (State.strips_of_front front) (s.strips_toTransit l r rest) rfl rfl
    rw [State.allocated_of_front front]
    exact State.allocated_toTransit ..
  | @exits s l r rest front =>
    refine State.reserved_of_moved h ?_ (State.strips_of_front front) (s.strips_setQueue_cons l _ rest) rfl rfl
    rw [State.allocated_of_front front]
    exact State.allocated_setQueue_cons ..
  | leaves front =>
    obtain ⟨a, b⟩ := PerLane.set_sublist front
    exact State.reserved_of_sublist h a b (.refl _) (.refl _)
  | @leads s r rest oldest =>
    refine State.reserved_of_moved h ?_ (s.strips_transit oldest) (s.strips_lead r rest) rfl rfl
    rw [State.allocated_eq, State.allocated_eq, oldest, List.length_cons, List.length_append, List.length_singleton]
    dsimp only
    omega
  | lost => exact State.reserved_of_sublist h (.refl _) (.refl _) List.erase_sublist (.refl _)
  | removed => exact State.reserved_of_sublist h (.refl _) (.refl _) (.refl _) List.erase_sublist
  | strip number plan => exact State.reserved_modBeltStrip number plan h
  | @pieces s test f =>
    have same : (s.modPieces test f).strips = s.strips := by
      unfold State.strips
      rw [s.beltStrips_modPieces test f]
      rfl
    refine State.reserved_of ?_ (by rw [same]) (fun x inTrack p inPlan => .inr ⟨x, same ▸ inTrack, inPlan⟩) h
    rw [State.uncutStrips, State.uncutStrips, same, State.allocated_eq, State.allocated_eq]
    simp [State.modPieces]
  | split few =>
    refine State.reserved_replaceStrip ?_ h
    rcases few with one | ⟨r, inTrack, p, inPlan, few⟩
    · omega
    · exact few.trans (h.2.2 r inTrack p inPlan)
  | clear =>
    exact State.reserved_of_sublist h (List.nil_sublist _) (List.nil_sublist _) (List.nil_sublist _)
      (List.nil_sublist _)

theorem State.powerOn_reserved (levels : InputLevels) : (State.powerOn levels).reserved := by
  have track : (State.powerOn levels).track = Track.powerOn := rfl
  have strips : (State.powerOn levels).strips = [] := by
    unfold State.strips State.beltStrips
    rw [track]
    rfl
  have records : (State.powerOn levels).allocated = 0 := by
    rw [State.allocated_eq, track]
    rfl
  unfold State.reserved State.uncutStrips
  rw [strips, records]
  exact ⟨Nat.zero_le _, List.nodup_nil, fun _ inTrack => absurd inTrack List.not_mem_nil⟩

/-- Settles O25: every meaning is made of moves, and each move keeps the reserve, the numbers and the plans. -/
theorem stepKeepsTheReserve : Obligations.StepKeepsTheReserve :=
  fun _ _ h stepped => (Kept.of_handles State.reserved_of_handles
    fun _ levels => State.powerOn_reserved levels).step (fun _ _ h => h) h stepped

end Sys2Proof.Machine

/-! The machine as a whole: its steps, its reset and power-on, and the frames of its ports. -/

namespace Sys2Proof.Machine

/-! ## A whole command's frame at once -/

/-- R181: a whole command that comes at once: what its own rule makes of its parameters, and its result. -/
theorem exec_taken {c : Cmd} {n : Nat} {p : PortId} {s t : State} {r : Result} {bs : List Byte} (ready : s.ready p c)
    (kind : c.row.kind = .whole n) (length : bs.length = n) (rule : Cmd.rule c bs s = (t, r)) :
    exec (frameInstr c p (.ends bs)) s = .next (t.setResult p r) := by
  have whole : bs.length = cmdParams c := by rw [cmdParams, kind, kindParams, length]
  rw [exec_whole_rule kind, wholeStep_taken c (Cmd.rule c) ready whole, rule]

/-! ## Steps -/

/-- Settles O1: the definition of a step. -/
theorem stepRunsTheFrontCommand : Obligations.StepRunsTheFrontCommand := fun _ _ _ => rfl

theorem step_idle {s : State} (idle : s.pending = []) : step s = .next s.idleStep := by
  rw [step, idle]

theorem State.takeOne_single (s : State) (d : Due) : s.takeOne d [] = s.takeDue d := if_pos rfl

/-- Log entry 4: of several events due, the one of the free choice happens. -/
theorem State.takeOne_several (s : State) (d : Due) {ds : List Due} (several : ds ≠ []) :
    ∃ x ∈ d :: ds, s.takeOne d ds = State.takeDue { s with choices := s.choices + 1 } x := by
  have inside : Config.duePick s.choices % (ds.length + 1) < (d :: ds).length := Nat.mod_lt _ (Nat.succ_pos _)
  refine ⟨_, List.getElem_mem inside, ?_⟩
  rw [State.takeOne, if_neg several, List.getElem?_eq_getElem inside, Option.getD_some]

/-- Settles O2: by the list of what is due. -/
theorem emptyQueueTakesWhatIsDue : Obligations.EmptyQueueTakesWhatIsDue := by
  intro s idle
  rw [step_idle idle, State.idleStep]
  cases due : s.dueAll with
  | nil => exact ⟨fun _ => rfl, nofun, nofun⟩
  | cons d ds =>
    refine ⟨nofun, fun e one => ?_, fun several => ?_⟩
    · obtain ⟨rfl, rfl⟩ := List.cons.inj one
      exact congrArg Host.Outcome.next (s.takeOne_single d)
    · have more : ds ≠ [] := fun none => by simp [none] at several
      obtain ⟨x, listed, taken⟩ := s.takeOne_several d more
      exact ⟨x, listed, congrArg Host.Outcome.next taken⟩

/-! ## Power-on -/

theorem State.channel_powerOn (levels : InputLevels) (c : ChannelId) :
    (State.powerOn levels).channel c = ⟨.idle, Timing.powerOn c, none⟩ := by
  simp [State.channel, State.powerOn, Fire.powerOn]

theorem State.bin_powerOn (levels : InputLevels) (b : BinId) : (State.powerOn levels).bin b = OrderBin.powerOn := by
  simp [State.bin, State.powerOn, Bins.powerOn]

theorem Marks.powerOn_eq : Marks.powerOn = ⟨8000, 12000, 20000, 28000,
    #v[30000, 32400, 34800, 37200, 39600, 42000, 44400, 46800, 49200, 51600, 54000], 58000⟩ := by
  decide

/-- Settles O4: block by block. -/
theorem resetAndPowerOn : Obligations.ResetAndPowerOn := by
  refine ⟨⟨?_, ⟨rfl, rfl⟩, ?_, rfl, rfl, ?_, ⟨rfl, rfl⟩, ⟨rfl, rfl, rfl, rfl, rfl⟩, ?_, ⟨rfl, rfl, rfl⟩, ?_, ?_, rfl, rfl, ?_,
    ⟨rfl, rfl, rfl, rfl, rfl⟩⟩, ?_⟩
  · exact congrArg (Track.mk ⟨[], []⟩ [] [] 0 0 0) Marks.powerOn_eq
  · intro l
    cases l <;> rfl
  · intro e i h
    cases e <;> exact Vector.getElem_replicate h
  · exact State.channel_powerOn _
  · exact State.bin_powerOn _
  · refine ⟨rfl, rfl, rfl, fun i => ?_, rfl, rfl, rfl, rfl, rfl, rfl⟩
    exact Vector.getElem_replicate i.isLt
  · intro p
    refine (State.port_powerOn _ p).trans ?_
    revert p
    decide
  · exact fun levels s => rfl

/-- Settles O5: a state after power-on differs from one of its choices and queue alone, which no law speaks of. -/
theorem powerOnIsLawful : Obligations.PowerOnIsLawful := by
  have lawful : ∀ levels, (State.powerOn levels).portsLawful ∧ (State.powerOn levels).withinBounds ∧
      (State.powerOn levels).reserved ∧ (State.powerOn levels).marksOrdered ∧ (State.powerOn levels).guarded ∧
      (State.powerOn levels).lanesLawful := fun levels =>
    ⟨State.powerOn_portsLawful levels, State.powerOn_withinBounds levels, State.powerOn_reserved levels,
      State.powerOn_marksOrdered levels, State.powerOn_guarded levels, State.powerOn_lanesLawful levels⟩
  refine ⟨lawful InputLevels.quiet, fun levels s t powered => ?_⟩
  obtain rfl : s.powerUp levels = t := Host.Outcome.next.inj powered
  exact lawful levels

end Sys2Proof.Machine

/-! The station ports: roles, the framing of commands, the routing of events, and ROLE_SET. -/

namespace Sys2Proof.Machine

/-! ## Roles and codes -/

/-- Table 10-1: no two commands share a code. -/
theorem find_code (c : Cmd) : Cmd.all.find? (fun x => x.code == c.code) = some c := by
  cases c <;> rfl

theorem Cmd.code_inj {c d : Cmd} (same : c.code = d.code) : c = d :=
  Option.some.inj ((find_code c).symm.trans (same ▸ find_code d))

/-- Settles O7: the roles command by command, and the codes byte by byte. -/
theorem rolesAndTheirCommands : Obligations.RolesAndTheirCommands := by
  refine ⟨fun c => ?_, fun c => ?_, fun c => ?_, fun c => ?_, fun c => ?_, fun c d => Cmd.code_inj, by decide⟩ <;>
    cases c <;> decide

/-! ## Whole commands -/

theorem State.ready_idle {s : State} {p : PortId} {c : Cmd} (may : (s.port p).role.mayIssue c = true) :
    State.ready (s.modPort p fun q => { q with frame := none }) p c := by
  simp [State.ready, may]

/-- Settles O8: by the framing of a whole command; bytes gathered before come first. -/
theorem wholeCommandsTakeTheirExactLength : Obligations.WholeCommandsTakeTheirExactLength := by
  intro c n p s buf bs kind
  have params : cmdParams c = n := by rw [cmdParams, kind, kindParams]
  simp only [exec_whole_rule kind]
  refine ⟨fun ready wrong => ?_, fun ready => ?_, fun open_ => ⟨?_, exec_frameBreak open_, fun may => ?_⟩⟩
  · rw [wholeStep_length c _ ready (params ▸ wrong)]
  · rw [wholeStep_opens c _ ready.1, if_pos ready.2]
  · rw [wholeStep_bytes c _ open_]
  · rw [wholeStep_ends c _ open_, wholeStep_ready c _ (State.ready_idle may)]

/-! ## Breaks, and incremental frames -/

theorem Incremental.result_eq (i : Incremental) : i.result =
    if i.header = .awaited then .length else if i.buf ≠ [] then .length
    else if i.busy = some true then .editionBusy else if i.bad then .badField else .ok := by
  unfold Incremental.result
  by_cases awaited : i.header = .awaited
  · rw [if_pos (.inl awaited), if_pos awaited]
  · rw [if_neg awaited]
    exact if_congr (or_iff_right awaited) rfl rfl

/-- Settles O9: breaks by how far the frame has come; incremental frames byte by byte. -/
theorem framesBreakAndEnd : Obligations.FramesBreakAndEnd := by
  refine ⟨fun p s => ⟨fun idle => ?_, fun code ph inProgress => ?_⟩, fun c p s kind => ?_⟩
  · show Host.Outcome.next (breakFrame p s) = _
    rw [breakFrame, idle]
  · rw [exec_frameBreak inProgress]
    cases ph <;> rfl
  · obtain ⟨g, rfl, hexec⟩ := exec_incremental kind
    simp only [hexec]
    refine ⟨fun as bs t first => ?_, fun i inProgress => ?_⟩
    · obtain rfl := Host.Outcome.next.inj first
      obtain ⟨bytes, ends⟩ := groupedStep_append g (p := p) (s := s) as bs
      exact ⟨congrArg Host.Outcome.next bytes, congrArg Host.Outcome.next ends⟩
    · rw [groupedStep_end g inProgress, Incremental.result_eq]

/-! ## Events -/

/-- R186: an event goes to the port that holds the role, and to port 0 when none does. -/
theorem State.roleHolder_holds (s : State) (r : Role) :
    (s.port (s.roleHolder r)).role = r ∨ (s.roleHolder r = 0 ∧ ∀ q, (s.port q).role ≠ r) := by
  unfold State.roleHolder
  split
  · exact .inl ‹_›
  · split
    · exact .inl ‹_›
    · split
      · exact .inl ‹_›
      · split
        · exact .inl ‹_›
        · refine .inr ⟨rfl, fun q => ?_⟩
          fin_cases q <;> assumption

theorem EventKind.destination_ne_none (kind : EventKind) : kind.destination ≠ .none := by
  cases kind <;> decide

/-- R184: one port at most holds a role. -/
theorem State.eq_roleHolder {s : State} (h : s.portsLawful) {r : Role} (some_ : r ≠ .none) {q : PortId}
    (holds : (s.port q).role = r) : q = s.roleHolder r := by
  obtain ⟨-, single, -⟩ := h
  rcases s.roleHolder_holds r with holder | ⟨-, none⟩
  · by_contra differ
    exact some_ (holds ▸ single q _ differ (holds.trans holder.symm))
  · exact absurd holds (none q)

/-- Settles O10: the port is the role's holder. -/
theorem eventsAreRoutedByRole : Obligations.EventsAreRoutedByRole := by
  intro s kind detail n k subject lawful
  have raised : ∀ q, (s.raise kind detail n k subject).port q =
      if q = s.roleHolder kind.destination then
        (s.port q).enqueue ⟨kind, detail, s.time.ms, s.track.position, n, k, subject⟩ else s.port q := by
    intro q
    rw [State.raise, State.raiseAt, State.port_modPort]
    split
    · rw [‹q = _›]
    · rfl
  refine ⟨s.roleHolder kind.destination, s.roleHolder_holds _,
    fun q => State.eq_roleHolder lawful kind.destination_ne_none, (State.raise_evolves ..).frame, fun q other => ?_,
    fun room => ?_, fun full => ?_⟩
  · rw [raised, if_neg other]
  · rw [raised, if_pos rfl, Port.enqueue, if_pos room]
  · rw [raised, if_pos rfl, Port.enqueue, if_neg (Nat.not_lt.mpr full)]

/-! ## ROLE_SET -/

theorem portOfCode_eq_some {b : Byte} {x : PortId} (h : b.toNat = x.val) : portOfCode b = some x := by
  rw [portOfCode, dif_pos (h ▸ x.isLt)]
  exact congrArg some (Fin.ext h)

theorem portOfCode_eq_none {b : Byte} (h : 4 ≤ b.toNat) : portOfCode b = none := dif_neg (Nat.not_lt.mpr h)

theorem Role.ofCode_eq_some {b : Byte} {r : Role} (h : b.toNat = r.code) : Role.ofCode b = some r := by
  rw [Role.ofCode, h]
  cases r <;> rfl

theorem Role.ofCode_eq_none {b : Byte} (h : 5 ≤ b.toNat) : Role.ofCode b = Option.none := List.getElem?_eq_none h

/-- R184: ROLE_SET of port 0, of no port, of SUPERVISOR or of no role is refused. -/
theorem takeRoleSet_badField {port role : Byte} (h : 4 ≤ port.toNat ∨ port = 0 ∨ 5 ≤ role.toNat ∨ role = 1)
    (s : State) : takeRoleSet [port, role] s = (s, .badField) := by
  rw [takeRoleSet]
  rcases Nat.lt_or_ge port.toNat 4 with named | none
  · rw [portOfCode_eq_some (x := ⟨port.toNat, named⟩) rfl]
    rcases h with above | zero | above | supervisor
    · omega
    · cases Role.ofCode role with
      | none => rfl
      | some r => exact if_pos (.inl (Fin.ext (show port.toNat = 0 by rw [zero]; rfl)))
    · rw [Role.ofCode_eq_none above]
    · rw [Role.ofCode_eq_some (r := .supervisor) (by rw [supervisor]; rfl)]
      exact if_pos (.inr rfl)
  · rw [portOfCode_eq_none none]

theorem State.roleTaken_iff (s : State) (x : PortId) (r : Role) :
    s.roleTaken x r = true ↔ ∃ q, q ≠ x ∧ (s.port q).role = r := by
  simp [State.roleTaken]

/-- R184: ROLE_SET of another port and another role. -/
theorem takeRoleSet_eq {port role : Byte} {x : PortId} {r : Role} (named : port.toNat = x.val) (notZero : x ≠ 0)
    (listed : role.toNat = r.code) (other : r ≠ .supervisor) (s : State) : takeRoleSet [port, role] s =
      if r ≠ .none ∧ s.roleTaken x r = true then (s, .roleTaken) else (s.modPort x fun q => q.assign r, .ok) := by
  rw [takeRoleSet, portOfCode_eq_some named, Role.ofCode_eq_some listed]
  exact if_neg (not_or.mpr ⟨notZero, other⟩)

/-- Settles O11: the refusals in their order by the codes, and whether another port holds the role. -/
theorem roleSet : Obligations.RoleSet := by
  intro p s port role ready
  refine ⟨fun bad => exec_taken ready rfl rfl (takeRoleSet_badField bad s), fun x r named notZero listed other =>
    ⟨fun isRole taken => exec_taken ready rfl rfl ?_, fun free => exec_taken ready rfl rfl ?_⟩⟩
  · exact (takeRoleSet_eq named notZero listed other s).trans (if_pos ⟨isRole, (s.roleTaken_iff x r).mpr taken⟩)
  · refine (takeRoleSet_eq named notZero listed other s).trans (if_neg ?_)
    rintro ⟨isRole, taken⟩
    obtain ⟨q, another, holds⟩ := (s.roleTaken_iff x r).mp taken
    exact free.elim isRole fun none => none q another holds

end Sys2Proof.Machine

/-! Reads: the framing of a read that comes at once, the releases, STATUS and READ_EVENTS. -/

namespace Sys2Proof.Machine

/-! ## The framing of a read -/

section
variable {c : Cmd} {n : Nat} (kind : c.row.kind = .read n)
include kind

theorem cmdParams_read : cmdParams c = n := by rw [cmdParams, kind, kindParams]

end

section
variable (c : Cmd) (answer : PortId → List Byte → State → Answer) {p : PortId} {s : State} (ready : s.ready p c)
include ready

/-- R183: a read with no parameters is taken at its command byte. -/
theorem readStep_opens_taken (bare : cmdParams c = 0) :
    readStep c answer p .opens s = s.setPhase p c.code (.answered (answer p [] s)) := by
  rw [readStep_opens c answer ready.1, if_pos ready.2, if_pos bare]

theorem readStep_opens_reading (params : cmdParams c ≠ 0) :
    readStep c answer p .opens s = s.setPhase p c.code (.reading []) := by
  rw [readStep_opens c answer ready.1, if_pos ready.2, if_neg params]

theorem readStep_ends_reading (params : cmdParams c ≠ 0) (bs : List Byte) : readStep c answer p (.ends bs) s =
    readEnd c p (readBytes c answer p bs (s.setPhase p c.code (.reading []))) := by
  have opened : openRead c answer p s = s.setPhase p c.code (.reading []) := by
    rw [openRead, if_pos ready.2, if_neg params]
  simp only [readStep, ready.1, opened]

/-- R183: a frame that ends before its last parameter byte. -/
theorem readStep_short {bs : List Byte} (short : bs.length < cmdParams c) :
    readStep c answer p (.ends bs) s = s.setResult p .length := by
  rw [readStep_ends_reading c answer ready (by omega), readBytes_reading c answer (buf := []) (by simp) bs
    (by simpa using short)]
  simp [readEnd, State.closeFrame_none ready.1]

/-- R183: the last parameter byte takes the read. -/
theorem readStep_params {bs : List Byte} {b : Byte} (last : bs.length + 1 = cmdParams c) :
    readStep c answer p (.bytes (bs ++ [b])) s =
      s.setPhase p c.code (.answered (answer p (bs ++ [b]) (s.setPhase p c.code (.reading bs)))) := by
  have opened : openRead c answer p s = s.setPhase p c.code (.reading []) := by
    rw [openRead, if_pos ready.2, if_neg (by omega)]
  simp only [readStep, ready.1, opened]
  rw [readBytes_taken c answer (buf := []) (by simp) bs b (by simpa using last)]
  simp

theorem readStep_ends_params {bs : List Byte} {b : Byte} (last : bs.length + 1 = cmdParams c) (rest : List Byte) :
    readStep c answer p (.ends (bs ++ [b] ++ rest)) s = readEnd c p (readBytes c answer p rest
      (s.setPhase p c.code (.answered (answer p (bs ++ [b]) (s.setPhase p c.code (.reading bs)))))) := by
  rw [readStep_ends_reading c answer ready (by omega), readBytes, List.foldl_append]
  have taken := readBytes_taken c answer (p := p) (s := s.setPhase p c.code (.reading [])) (buf := []) (by simp) bs b
    (by simpa using last)
  rw [readBytes] at taken
  rw [taken]
  simp [readBytes]

/-- A read that hands over nothing changes nothing but the result of its port. -/
theorem readStep_ends_quiet (quiet : ∀ ps u, (answer p ps u).hand = .nothing) (bs : List Byte) :
    ∃ r, readStep c answer p (.ends bs) s = s.setResult p r ∧ (bs.length < cmdParams c → r = .length) := by
  rcases Nat.lt_or_ge bs.length (cmdParams c) with short | whole
  · exact ⟨.length, readStep_short c answer ready short, fun _ => rfl⟩
  · rcases Nat.eq_zero_or_pos (cmdParams c) with bare | params
    · exact ⟨_, readStep_plain c answer ready bare (quiet [] s) bs, fun short => by omega⟩
    · obtain ⟨ps, b, rest, rfl, last⟩ : ∃ ps b rest, bs = ps ++ [b] ++ rest ∧ ps.length + 1 = cmdParams c := by
        refine ⟨bs.take (cmdParams c - 1), bs[cmdParams c - 1], bs.drop (cmdParams c), ?_, ?_⟩
        · rw [List.take_concat_get', Nat.sub_add_cancel params, List.take_append_drop]
        · rw [List.length_take]
          omega
      rw [readStep_ends_params c answer ready last]
      obtain ⟨k, shifted⟩ := readBytes_answered c answer (p := p)
        (s := s.setPhase p c.code (.answered (answer p (ps ++ [b]) (s.setPhase p c.code (.reading ps)))))
        (a := answer p (ps ++ [b]) (s.setPhase p c.code (.reading ps))) (by simp) (quiet _ _) rest
      refine ⟨(answer p (ps ++ [b]) (s.setPhase p c.code (.reading ps))).result, ?_, fun short => by omega⟩
      rw [shifted]
      simp [readEnd, State.closeFrame_none ready.1]

end

/-! ## Releases -/

/-- A record is released with the byte of the response that completes it. -/
theorem releaseStep_released {isMine : Handover → Bool} {p : PortId} {s : State} {code : Byte} {a : Answer} {k : Nat}
    (inProgress : (s.port p).frame = some ⟨code, .answered a⟩) (mine : isMine a.hand = true)
    (next : a.nextRelease = some k) : releaseStep isMine p s = (s.setShifted p code a k).releaseHand p a.hand := by
  rw [releaseStep, inProgress]
  simp only [next, mine, if_true]

theorem Answer.nextRelease_flag {a : Answer} {lost : Bool} (hand : a.hand = .flag lost) :
    a.nextRelease = if a.shifted < 3 ∧ 3 ≤ a.response.length then some 3 else none := by
  simp [Answer.nextRelease, hand, Option.filter]

theorem Answer.nextRelease_events {a : Answer} {discarded : Bool} (hand : a.hand = .events discarded) :
    a.nextRelease = if a.shifted < 12 * ((a.shifted - 1) / 12) + 13 ∧
      12 * ((a.shifted - 1) / 12) + 13 ≤ a.response.length then some (12 * ((a.shifted - 1) / 12) + 13) else none := by
  have place : 12 * ((a.shifted - 1) / 12 + 1) + 1 = 12 * ((a.shifted - 1) / 12) + 13 := by omega
  simp only [Answer.nextRelease, hand, Option.filter, place, Bool.and_eq_true, decide_eq_true_eq]

/-- R162, R195, R197: a label, a trace and the fault record are handed over with the last byte. -/
theorem Answer.nextRelease_last {a : Answer}
    (hand : (∃ slot serial, a.hand = .label slot serial) ∨ a.hand = .trace ∨ a.hand = .fault) :
    a.nextRelease = if a.shifted < a.response.length then some a.response.length else none := by
  rcases hand with ⟨slot, serial, hand⟩ | hand | hand <;>
    simp only [Answer.nextRelease, hand, Option.filter, le_refl, decide_true, Bool.and_true, decide_eq_true_eq]

/-! ## STATUS -/

theorem State.statusResponse_eq (s : State) (p : PortId) : s.statusResponse p =
    ([(s.port p).role.code, (s.port p).queue.length, (s.port p).overflow.toNat, s.holds.flags, (s.lane .a).state.code,
      (s.lane .b).state.code, s.beltRun.toNat, s.freeRecords, s.uncutStrips, s.fire.schedule.length,
      s.grading.active.code, s.grading.mode.code, s.labelsHeld]).map (BitVec.ofNat 8) := rfl

theorem exec_status_ends {p : PortId} {s : State} (ready : s.ready p .status) (bs : List Byte) :
    exec (.status p (.ends bs)) s = .next (s.modPort p fun q =>
      { q with result := .ok, overflow := if 3 ≤ bs.length then false else q.overflow }) := by
  have idle : (s.port p).frame = none := ready.1
  have long : 3 ≤ (answerStatus p [] s).response.length := by simp [answerStatus, Answer.given, State.statusResponse_eq]
  obtain ⟨before, after⟩ := readStep_single .status answerStatus ready rfl rfl 3 (by decide) long
    (fun j => by
      rw [Answer.nextRelease_flag (lost := false) rfl]
      exact if_congr (and_iff_left long) rfl rfl)
    (fun u shifted => by simp [answerStatus, Answer.given, State.releaseHand, State.releaseFlag, shifted]) bs
  show Host.Outcome.next (readStep .status answerStatus p (.ends bs) s) = _
  rcases Nat.lt_or_ge bs.length 3 with short | whole
  · rw [before short]
    exact congrArg Host.Outcome.next (s.modPort_congr p (by rw [if_neg (by omega)]; rfl))
  · rw [after whole]
    simp only [answerStatus, Answer.given, State.releaseHand, State.releaseFlag, State.setPhase, State.closeFrame,
      State.modPort_modPort]
    exact congrArg Host.Outcome.next (s.modPort_congr p (by rw [if_pos whole, idle]))

/-- Settles O13: the answer at the command byte, one record of three bytes, and its release. -/
theorem statusReportsAndReleasesTheFlag : Obligations.StatusReportsAndReleasesTheFlag := by
  refine fun p s => ⟨fun ready => ⟨?_, exec_status_ends ready⟩, fun code a lost inProgress hand before long => ?_⟩
  · exact congrArg Host.Outcome.next (readStep_opens_taken .status answerStatus ready rfl)
  · have next : a.nextRelease = some 3 := by rw [Answer.nextRelease_flag hand, if_pos ⟨before, long⟩]
    have released := releaseStep_released (isMine := Handover.isFlag) inProgress (by rw [hand]; rfl) next
    rw [hand] at released
    refine congrArg Host.Outcome.next (released.trans ?_)
    simp only [State.releaseHand, State.releaseFlag, State.setShifted, State.setPhase, State.modPort_modPort]

/-! ## READ_EVENTS -/

/-- A READ_EVENTS response at port p of which m bytes have been shifted out: the records whole by then have left. -/
def State.eventsShifted (s : State) (p : PortId) (a : Answer) (m : Nat) : State :=
  s.modPort p fun q =>
    { q with frame := some ⟨0x02, .answered { a with shifted := m }⟩, queue := q.queue.drop ((m - 1) / 12) }

theorem State.frame_eventsShifted (s : State) (p : PortId) (a : Answer) (m : Nat) :
    ((s.eventsShifted p a m).port p).frame = some ⟨Cmd.code .readEvents, .answered { a with shifted := m }⟩ := by
  rw [State.eventsShifted, State.port_modPort, if_pos rfl]
  rfl

/-- R188: the byte that comes next completes a record. -/
theorem Answer.nextRelease_shifted {a : Answer} (hand : a.hand = .events false) (m : Nat) :
    ({ a with shifted := m } : Answer).nextRelease = some (m + 1) ↔
      12 * ((m - 1) / 12) + 13 = m + 1 ∧ m < a.response.length := by
  rw [Answer.nextRelease_events (a := { a with shifted := m }) hand, ite_eq_iff]
  simp only [Option.some.injEq, reduceCtorEq, and_false, or_false]
  omega

/-- R188: one byte more; the twelfth of a record releases it. -/
theorem readByte_eventsShifted {s : State} {p : PortId} {a : Answer} (hand : a.hand = .events false) (m : Nat) (b : Byte) :
    readByte .readEvents answerReadEvents p (s.eventsShifted p a m) b =
      s.eventsShifted p a (if m < a.response.length then m + 1 else m) := by
  have inProgress := s.frame_eventsShifted p a m
  by_cases inside : m < a.response.length
  · rw [if_pos inside]
    by_cases whole : 12 * ((m - 1) / 12) + 13 = m + 1
    · have next := (Answer.nextRelease_shifted hand m).mpr ⟨whole, inside⟩
      rw [readByte_releases .readEvents answerReadEvents inProgress b next]
      dsimp only
      rw [hand]
      simp only [State.releaseHand, State.releaseEvent, State.setShifted, State.setPhase, State.eventsShifted,
        State.modPort_modPort, Bool.false_eq_true, if_false, List.tail_drop]
      refine s.modPort_congr p ?_
      rw [show (m - 1) / 12 + 1 = (m + 1 - 1) / 12 by omega, hand]
      rfl
    · have later := mt (Answer.nextRelease_shifted hand m).mp fun here => whole here.1
      rw [readByte, State.phaseOf_some inProgress]
      dsimp only
      rw [State.shiftByte, if_neg later, if_pos inside]
      simp only [State.setShifted, State.setPhase, State.eventsShifted, State.modPort_modPort]
      refine s.modPort_congr p ?_
      rw [show (m - 1) / 12 = (m + 1 - 1) / 12 by omega]
      rfl
  · have later := mt (Answer.nextRelease_shifted hand m).mp fun here => inside here.2
    rw [if_neg inside, readByte, State.phaseOf_some inProgress]
    dsimp only
    rw [State.shiftByte, if_neg later, if_neg inside]

theorem readBytes_eventsShifted {s : State} {p : PortId} {a : Answer} (hand : a.hand = .events false) (bs : List Byte)
    (m : Nat) (within : m ≤ a.response.length) : readBytes .readEvents answerReadEvents p bs (s.eventsShifted p a m) =
      s.eventsShifted p a (min (m + bs.length) a.response.length) := by
  induction bs generalizing m with
  | nil => rw [List.length_nil, Nat.add_zero, Nat.min_eq_left within]; rfl
  | cons b bs ih =>
    rw [readBytes, List.foldl_cons, readByte_eventsShifted hand, ← readBytes, ih _ (by split <;> omega), List.length_cons]
    congr 1
    split <;> omega

theorem Event.bytes_length (e : Event) : e.bytes.length = 12 := rfl

/-- R188: one byte for the count, and twelve for each record. -/
theorem Port.eventsResponse_length (q : Port) (n : Nat) :
    (q.eventsResponse n).length = 12 * min n q.queue.length + 1 := by
  rw [Port.eventsResponse, List.length_append, List.length_flatMap]
  simp only [Event.bytes_length, List.map_const', List.sum_replicate, List.length_take, smul_eq_mul]
  rw [show (be8 (min n q.queue.length)).length = 1 from rfl]
  omega

section
variable {p : PortId} {s : State} (ready : s.ready p .readEvents) {n : Byte}
include ready

theorem exec_readEvents_badField (bad : n = 0 ∨ 32 < n.toNat) (bs : List Byte) :
    exec (.readEvents p (.ends (n :: bs))) s = .next (s.setResult p .badField) := by
  have count : ¬ (1 ≤ n.toNat ∧ n.toNat ≤ 32) := by
    rcases bad with rfl | above
    · decide
    · omega
  have refused : ∀ u, answerReadEvents p [n] u = .refuse .badField := fun _ => if_neg count
  have taken := readStep_ends_params .readEvents answerReadEvents ready (bs := []) (b := n) rfl bs
  rw [List.nil_append, refused] at taken
  obtain ⟨k, shifted⟩ := readBytes_answered .readEvents answerReadEvents (p := p)
    (s := s.setPhase p (Cmd.code .readEvents) (.answered (.refuse .badField))) (a := .refuse .badField) (by simp) rfl bs
  refine congrArg Host.Outcome.next (taken.trans ?_)
  rw [shifted]
  simp [readEnd, Answer.refuse, State.closeFrame_none ready.1]

variable (positive : 1 ≤ n.toNat) (listed : n.toNat ≤ 32)
include positive listed

omit ready in
theorem answerReadEvents_eq (bs : List Byte) :
    answerReadEvents p [n] (s.setPhase p (Cmd.code .readEvents) (.reading bs)) =
      .given ((s.port p).eventsResponse n.toNat) (.events false) := by
  rw [answerReadEvents, if_pos ⟨positive, listed⟩, State.port_setPhase, if_pos rfl]
  rfl

theorem exec_readEvents_ends (bs : List Byte) : exec (.readEvents p (.ends (n :: bs))) s = .next (s.modPort p fun q =>
    { q with result := .ok, queue := q.queue.drop (min ((bs.length - 1) / 12) n.toNat) }) := by
  have taken := readStep_ends_params .readEvents answerReadEvents ready (bs := []) (b := n) rfl bs
  rw [List.nil_append, answerReadEvents_eq positive listed] at taken
  have start : s.setPhase p (Cmd.code .readEvents) (.answered (.given ((s.port p).eventsResponse n.toNat) (.events false))) =
      s.eventsShifted p (.given ((s.port p).eventsResponse n.toNat) (.events false)) 0 := rfl
  rw [start, readBytes_eventsShifted rfl bs 0 (Nat.zero_le _)] at taken
  refine congrArg Host.Outcome.next (taken.trans ?_)
  rw [readEnd, State.phaseOf_some (State.frame_eventsShifted ..)]
  have long : (Answer.given ((s.port p).eventsResponse n.toNat) (.events false)).response.length =
      12 * min n.toNat (s.port p).queue.length + 1 := Port.eventsResponse_length ..
  simp only [State.eventsShifted, State.closeFrame, State.modPort_modPort, long]
  refine s.modPort_congr p ?_
  have records : (s.port p).queue.drop ((min (0 + bs.length) (12 * min n.toNat (s.port p).queue.length + 1) - 1) / 12) =
      (s.port p).queue.drop (min ((bs.length - 1) / 12) n.toNat) := by
    rw [List.drop_eq_drop_iff]
    omega
  rw [records, ready.1]
  rfl

end

/-- Settles O14: the length, the two judgements of the count byte, and the records byte by byte. -/
theorem eventsAreReadAndReleased : Obligations.EventsAreReadAndReleased := by
  refine fun p s => ⟨fun ready => ⟨?_, fun n bs => ⟨fun bad => exec_readEvents_badField ready bad bs,
    fun positive listed => ⟨?_, exec_readEvents_ends ready positive listed bs⟩⟩⟩,
    fun code a discarded inProgress hand room => ?_, fun e => rfl⟩
  · exact congrArg Host.Outcome.next (readStep_short .readEvents answerReadEvents ready (by decide))
  · refine congrArg Host.Outcome.next ((readStep_params .readEvents answerReadEvents ready (bs := []) rfl).trans ?_)
    rw [List.nil_append, answerReadEvents_eq positive listed]
    rfl
  · have next : a.nextRelease = some (12 * ((a.shifted - 1) / 12) + 13) := by
      rw [Answer.nextRelease_events hand, if_pos ⟨by omega, room⟩]
    have released := releaseStep_released (isMine := Handover.isEvents) inProgress (by rw [hand]; rfl) next
    rw [hand] at released
    refine congrArg Host.Outcome.next (released.trans ?_)
    cases discarded <;>
      simp [State.releaseHand, State.releaseEvent, State.setShifted, State.setPhase]

end Sys2Proof.Machine

/-! TRACE_READ, FAULT_READ and TAKE_LABEL: what each hands over, and the release of it. -/

namespace Sys2Proof.Machine

/-! ## TRACE_READ -/

theorem State.releaseTrace_held {s : State} (held : s.audit.trace = .held) : s.releaseTrace = { s with
    audit := { s.audit with trace := .none, strip := 0, lane := .a, truncated := false, entries := [] } } :=
  if_pos held

theorem State.releaseTrace_other {s : State} (other : s.audit.trace ≠ .held) : s.releaseTrace = s := if_neg other

theorem State.releaseTrace_unchangedBut (s : State) : s.unchangedBut [.audit] s.releaseTrace := by
  by_cases held : s.audit.trace = .held
  · rw [State.releaseTrace_held held]
    exact (State.Evolves.of_fields (entries := fun _ => Nat.zero_le _)).frame
  · rw [State.releaseTrace_other held]
    exact .refl _ _

theorem State.releaseTrace_ports (s : State) : s.releaseTrace.ports = s.ports := s.releaseTrace_unchangedBut.ports

theorem State.setPhase_unchangedBut (s : State) (p : PortId) (code : Byte) (ph : Phase) :
    s.unchangedBut [.ports] (s.setPhase p code ph) :=
  (State.modPort_evolves s p (fun q => { q with frame := some ⟨code, ph⟩ }) ⟨rfl, rfl, id⟩).frame

theorem State.closeFrame_unchangedBut (s : State) (p : PortId) (r : Result) :
    s.unchangedBut [.ports] (s.closeFrame p r) := by
  refine ⟨fun b other => ?_⟩
  cases b
  case ports => exact absurd (List.mem_singleton_self _) other
  all_goals rfl

theorem answerTraceRead_held {s : State} (held : s.audit.trace = .held) (p : PortId) (ps : List Byte) :
    answerTraceRead p ps s = .given s.audit.traceBytes .trace := by
  rw [answerTraceRead, held]

theorem answerTraceRead_other {s : State} (other : s.audit.trace ≠ .held) (p : PortId) (ps : List Byte) :
    answerTraceRead p ps s = .refuse .notYet := by
  unfold answerTraceRead
  cases stands : s.audit.trace with
  | held => exact absurd stands other
  | none => rfl
  | inProgress => rfl

/-- Table 10-9: five bytes of header, and eight for each entry. -/
theorem Audit.traceBytes_length (a : Audit) : a.traceBytes.length = 5 + 8 * a.entries.length := by
  have entry : ∀ e : TraceEntry, e.bytes.length = 8 := fun _ => rfl
  rw [Audit.traceBytes, List.length_append, List.length_flatMap]
  simp only [entry, List.map_const', List.sum_replicate, smul_eq_mul]
  rw [Nat.mul_comm]
  rfl

section
variable {p : PortId} {s : State} (ready : s.ready p .traceRead)
include ready

theorem exec_traceRead_notYet (other : s.audit.trace ≠ .held) (bs : List Byte) :
    exec (.traceRead p (.ends bs)) s = .next (s.setResult p .notYet) := by
  have refused := answerTraceRead_other other p []
  have ended := readStep_plain .traceRead answerTraceRead ready rfl (by rw [refused]; rfl) bs
  rw [refused] at ended
  exact congrArg Host.Outcome.next ended

theorem exec_traceRead_ends (held : s.audit.trace = .held) (bs : List Byte) :
    exec (.traceRead p (.ends bs)) s = .next (if bs.length < 5 + 8 * s.audit.entries.length then s.setResult p .ok
      else ((s.setPhase p (Cmd.code .traceRead) (.answered { Answer.given s.audit.traceBytes .trace with
        shifted := 5 + 8 * s.audit.entries.length })).releaseTrace).closeFrame p .ok) := by
  have given := answerTraceRead_held held p []
  have long := s.audit.traceBytes_length
  have ended := readStep_single .traceRead answerTraceRead ready rfl (by rw [given]; rfl)
    (5 + 8 * s.audit.entries.length) (by omega) (by rw [given, ← long]; exact le_refl _)
    (fun j => by rw [given, Answer.nextRelease_last (.inr (.inl rfl)), ← long]; rfl)
    (fun u shifted => by
      rw [given] at shifted ⊢
      show ((u.releaseTrace).port p).frame = _
      rw [State.port, State.releaseTrace_ports]
      exact shifted) bs
  rw [given] at ended
  obtain ⟨before, after⟩ := ended
  refine congrArg Host.Outcome.next ?_
  split
  · exact before ‹_›
  · exact after (by omega)

end

/-- R195: what a TRACE_READ that comes at once does. -/
theorem exec_traceRead_held {p : PortId} {s : State} (ready : s.ready p .traceRead) (held : s.audit.trace = .held)
    (bs : List Byte) : ∃ t, exec (.traceRead p (.ends bs)) s = .next t ∧ s.unchangedBut [.audit, .ports] t ∧
      t.ports = (s.setResult p .ok).ports ∧
      (bs.length < 5 + 8 * s.audit.entries.length → t.audit = s.audit) ∧
      (5 + 8 * s.audit.entries.length ≤ bs.length → t.audit = { s.audit with
        trace := .none, strip := 0, lane := .a, truncated := false, entries := [] }) := by
  refine ⟨_, exec_traceRead_ends ready held bs, ?_⟩
  split
  case isTrue short =>
    exact ⟨(State.setResult_unchangedBut ..).mono, rfl, fun _ => rfl, fun long => absurd short (Nat.not_lt.mpr long)⟩
  case isFalse long =>
    generalize phase : Phase.answered { Answer.given s.audit.traceBytes .trace with
      shifted := 5 + 8 * s.audit.entries.length } = ph
    refine ⟨((State.setPhase_unchangedBut ..).comp (State.releaseTrace_unchangedBut _)).trans
      (State.closeFrame_unchangedBut ..).mono, ?_, fun short => absurd short long, fun _ => ?_⟩
    · rw [State.releaseTrace_held (s := s.setPhase p _ ph) held]
      show ((s.setPhase p _ ph).closeFrame p .ok).ports = _
      rw [State.closeFrame_setPhase, State.closeFrame_none ready.1]
    · rw [State.releaseTrace_held (s := s.setPhase p _ ph) held]
      rfl

theorem exec_traceRelease {p : PortId} {s : State} {code : Byte} {a : Answer}
    (inProgress : (s.port p).frame = some ⟨code, .answered a⟩) (hand : a.hand = .trace)
    (before : a.shifted < a.response.length) : exec (.traceRelease p) s =
      .next (s.setPhase p code (.answered { a with shifted := a.response.length })).releaseTrace := by
  have next : a.nextRelease = some a.response.length := by
    rw [Answer.nextRelease_last (.inr (.inl hand)), if_pos before]
  have released := releaseStep_released (isMine := Handover.isTrace) inProgress (by rw [hand]; rfl) next
  rw [hand] at released
  exact congrArg Host.Outcome.next released

/-! ## FAULT_READ -/

theorem answerFaultRead_some {s : State} {f : FaultRec} (fault : s.audit.fault = some f) (p : PortId) (ps : List Byte) :
    answerFaultRead p ps s = .given f.bytes .fault := by
  rw [answerFaultRead, fault]

theorem answerFaultRead_none {s : State} (fault : s.audit.fault = none) (p : PortId) (ps : List Byte) :
    answerFaultRead p ps s = .refuse .notFound := by
  rw [answerFaultRead, fault]

section
variable {p : PortId} {s : State} (ready : s.ready p .faultRead)
include ready

theorem exec_faultRead_notFound (empty : s.audit.fault = none) (bs : List Byte) :
    exec (.faultRead p (.ends bs)) s = .next (s.setResult p .notFound) := by
  have refused := answerFaultRead_none empty p []
  have ended := readStep_plain .faultRead answerFaultRead ready rfl (by rw [refused]; rfl) bs
  rw [refused] at ended
  exact congrArg Host.Outcome.next ended

theorem exec_faultRead_ends {f : FaultRec} (fault : s.audit.fault = some f) (bs : List Byte) :
    exec (.faultRead p (.ends bs)) s = .next { s.setResult p .ok with
      audit.fault := if bs.length < 11 then some f else none } := by
  have given := answerFaultRead_some fault p []
  have ended := readStep_single .faultRead answerFaultRead ready rfl (by rw [given]; rfl) 11 (by decide)
    (by rw [given]; exact le_refl 11) (fun j => by rw [given, Answer.nextRelease_last (.inr (.inr rfl))]; rfl)
    (fun u shifted => by rw [given] at shifted ⊢; exact shifted) bs
  rw [given] at ended
  obtain ⟨before, after⟩ := ended
  refine congrArg Host.Outcome.next ?_
  split
  · refine (before ‹_›).trans ?_
    rw [← fault]
    rfl
  · refine (after (by omega)).trans ?_
    show State.releaseFault ((s.setPhase p _ _).closeFrame p .ok) = _
    rw [State.closeFrame_setPhase, State.closeFrame_none ready.1]
    rfl

end

/-- Settles O16: each of the two reads, its release, and the bytes of both. -/
theorem tracesAndFaultsAreRead : Obligations.TracesAndFaultsAreRead := by
  refine ⟨fun p s => ⟨fun ready => ⟨exec_traceRead_notYet ready, fun held =>
      ⟨?traceOpens, s.audit.traceBytes_length, exec_traceRead_held ready held⟩⟩, fun code a inProgress hand before => ?traceRelease⟩,
    fun p s => ⟨fun ready => ⟨exec_faultRead_notFound ready, fun f fault =>
      ⟨rfl, ?faultOpens, exec_faultRead_ends ready fault⟩⟩, fun code a inProgress hand before => ?faultRelease⟩,
    fun two three twoEq threeEq => ?bytes⟩
  case traceOpens =>
    refine congrArg Host.Outcome.next ((readStep_opens_taken .traceRead answerTraceRead ready rfl).trans ?_)
    rw [answerTraceRead_held held]
    rfl
  case traceRelease =>
    refine ⟨_, exec_traceRelease inProgress hand before,
      (State.setPhase_unchangedBut ..).comp (State.releaseTrace_unchangedBut _), State.releaseTrace_ports _,
      fun other => ?_, fun held => ?_⟩
    · rw [State.releaseTrace_other (s := s.setPhase p code _) other]
      rfl
    · rw [State.releaseTrace_held (s := s.setPhase p code _) held]
      rfl
  case faultOpens =>
    refine congrArg Host.Outcome.next ((readStep_opens_taken .faultRead answerFaultRead ready rfl).trans ?_)
    rw [answerFaultRead_some fault]
    rfl
  case faultRelease =>
    have next : a.nextRelease = some a.response.length := by
      rw [Answer.nextRelease_last (.inr (.inr hand)), if_pos before]
    have released := releaseStep_released (isMine := Handover.isFault) inProgress (by rw [hand]; rfl) next
    rw [hand] at released
    exact congrArg Host.Outcome.next released
  case bytes =>
    obtain rfl : two = fun n => [n / 256, n] := funext twoEq
    obtain rfl : three = fun n => [n / 65536, n / 256, n] := funext threeEq
    refine ⟨fun a => ?_, fun f => rfl⟩
    rw [List.map_append, List.map_flatMap]
    cases truncated : a.truncated <;> simp only [Audit.traceBytes, flagByte, truncated] <;> rfl

end Sys2Proof.Machine

/-! TAKE_LABEL, and the composition that follows the release of a label. -/

namespace Sys2Proof.Machine

/-! ## Composition -/

/-- R160: composition stops with no bin waiting, with the slot to fill taken, and with the counter run out. -/
theorem State.composeWhile_stops {s : State} (fuel : Nat) (stops : s.bnc.waitList = [] ∨ s.bnc.mayCompose = false) :
    s.composeWhile fuel = s := by
  cases fuel with
  | zero => rfl
  | succ fuel =>
    unfold State.composeWhile
    split
    · rfl
    · rename_i waiting
      rcases stops with none | full
      · rw [none] at waiting
        cases waiting
      · rw [full]
        rfl

theorem State.compose_stops {s : State} (stops : s.bnc.waitList = [] ∨ s.bnc.mayCompose = false) : s.compose = s :=
  State.composeWhile_stops 2 stops

/-- R160: a label is composed, and no other after it. -/
theorem State.compose_once {s : State} {b : BinId} {rest : List BinId} (waiting : s.bnc.waitList = b :: rest)
    (may : s.bnc.mayCompose = true)
    (full : (s.composeLabel b rest).bnc.mayCompose = false) : s.compose = s.composeLabel b rest := by
  rw [State.compose, State.composeWhile, waiting]
  dsimp only
  rw [if_pos may, State.composeWhile_stops 1 (.inr full)]

/-- R160, R161: the slots, the counters and the list of the bins that wait, once a label is composed. -/
def State.labelWritten (s : State) (b : BinId) (rest : List BinId) : State :=
  { s with
    bnc.slots := s.bnc.slots.set s.bnc.compose.val (some (s.labelOf b)) s.bnc.compose.isLt
    bnc.serial := s.bnc.serial + 1
    bnc.compose := otherSlot s.bnc.compose
    bnc.waitList := rest }

theorem State.composeLabel_eq {s : State} {b : BinId} {i : OrderId} (bound : (s.bin b).order = some i)
    (rest : List BinId) : s.composeLabel b rest =
      ((((s.labelWritten b rest).enterBin b .labelled).modOrder i fun o =>
        { o with labelled := o.labelled + 1, opened := o.opened - 1 }).raise .labelReady (s.bin b).isPartial.toNat 0 0
          b.val) := by
  rw [State.composeLabel, bound]
  rfl

/-! ## A frame that notes no loss goes on through composition -/

section
variable {p : PortId} {f : Frame} (quiet : f.noteLoss = f)
include quiet

theorem State.frame_raiseAt {s : State} (inProgress : (s.port p).frame = some f) (q : PortId) (kind : EventKind)
    (d : Nat) (n : StripNum) (k x : Nat) : ((s.raiseAt q kind d n k x).port p).frame = some f := by
  rw [State.raiseAt, State.port_modPort]
  split
  case isTrue here =>
    rw [← here, Port.enqueue]
    split
    · exact inProgress
    · show (s.port p).frame.map Frame.noteLoss = _
      rw [inProgress, Option.map_some, quiet]
  case isFalse => exact inProgress

theorem State.frame_raise {s : State} (inProgress : (s.port p).frame = some f) (kind : EventKind) (d : Nat)
    (n : StripNum) (k x : Nat) : ((s.raise kind d n k x).port p).frame = some f :=
  State.frame_raiseAt quiet inProgress ..

theorem State.frame_composeLabel {s : State} (inProgress : (s.port p).frame = some f) (b : BinId) (rest : List BinId) :
    ((s.composeLabel b rest).port p).frame = some f := by
  unfold State.composeLabel
  refine State.frame_raise quiet ?_ ..
  split
  · exact State.frame_raise quiet inProgress ..
  · exact State.frame_raise quiet inProgress ..

theorem State.frame_composeWhile (fuel : Nat) {s : State} (inProgress : (s.port p).frame = some f) :
    ((s.composeWhile fuel).port p).frame = some f := by
  induction fuel generalizing s with
  | zero => exact inProgress
  | succ fuel ih =>
    unfold State.composeWhile
    split
    · exact inProgress
    · split
      · exact ih (State.frame_composeLabel quiet inProgress ..)
      · exact inProgress

theorem State.frame_releaseLabel {s : State} (inProgress : (s.port p).frame = some f) (slot : Fin 2)
    (serial : BitVec 32) : ((s.releaseLabel slot serial).port p).frame = some f := by
  unfold State.releaseLabel
  split
  · exact State.frame_composeWhile quiet 2 inProgress
  · exact inProgress

end

/-! ## TAKE_LABEL -/

theorem countBytes_length (v : Vector Nat 8) : (countBytes v).length = 16 := by
  have two : ∀ n, (be16 n).length = 2 := fun _ => rfl
  rw [countBytes, List.length_flatMap]
  simp only [two, List.map_const', List.sum_replicate, Vector.length_toList, smul_eq_mul]

/-- Table 10-8. -/
theorem Label.bytes_length (x : Label) : x.bytes.length = 59 := by
  simp only [Label.bytes, Bundle.bytes, List.length_append, countBytes_length]
  rfl

theorem answerTakeLabel_some {s : State} {x : Label} (held : s.bnc.slots[s.bnc.take] = some x) (p : PortId)
    (ps : List Byte) : answerTakeLabel p ps s = .given x.bytes (.label s.bnc.take x.serial) := by
  rw [answerTakeLabel, held]

theorem answerTakeLabel_none {s : State} (empty : s.bnc.slots[s.bnc.take] = none) (p : PortId) (ps : List Byte) :
    answerTakeLabel p ps s = .refuse .notFound := by
  rw [answerTakeLabel, empty]

section
variable {p : PortId} {s : State} (ready : s.ready p .takeLabel)
include ready

theorem exec_takeLabel_notFound (empty : s.bnc.slots[s.bnc.take] = none) (bs : List Byte) :
    exec (.takeLabel p (.ends bs)) s = .next (s.setResult p .notFound) := by
  have refused := answerTakeLabel_none empty p []
  have ended := readStep_plain .takeLabel answerTakeLabel ready rfl (by rw [refused]; rfl) bs
  rw [refused] at ended
  exact congrArg Host.Outcome.next ended

variable {x : Label} (held : s.bnc.slots[s.bnc.take] = some x)
include held

theorem exec_takeLabel_opens : exec (.takeLabel p .opens) s =
    .next (s.setPhase p 0x36 (.answered ⟨.ok, x.bytes, 0, .label s.bnc.take x.serial⟩)) := by
  refine congrArg Host.Outcome.next ((readStep_opens_taken .takeLabel answerTakeLabel ready rfl).trans ?_)
  rw [answerTakeLabel_some held]
  rfl

theorem exec_takeLabel_ends (bs : List Byte) :
    (bs.length < 59 → exec (.takeLabel p (.ends bs)) s = .next (s.setResult p .ok)) ∧
    (59 ≤ bs.length → exec (.takeLabel p (.ends bs)) s = .next
      (((s.setPhase p 0x36 (.answered ⟨.ok, x.bytes, 59, .label s.bnc.take x.serial⟩)).releaseLabel s.bnc.take
        x.serial).closeFrame p .ok)) := by
  have given := answerTakeLabel_some held p []
  have long := x.bytes_length
  have ended := readStep_single .takeLabel answerTakeLabel ready rfl (by rw [given]; rfl) 59 (by decide)
    (by rw [given, ← long]; exact le_refl _)
    (fun j => by rw [given, Answer.nextRelease_last (.inl ⟨_, _, rfl⟩), ← long]; rfl)
    (fun u shifted => by
      rw [given] at shifted ⊢
      exact State.frame_releaseLabel rfl shifted _ _) bs
  rw [given] at ended
  exact ⟨fun short => congrArg Host.Outcome.next (ended.1 short), fun whole => congrArg Host.Outcome.next (ended.2 whole)⟩

end

/-! ## The release -/

theorem exec_labelRelease {p : PortId} {s : State} {code : Byte} {a : Answer} {slot : Fin 2} {serial : BitVec 32}
    (inProgress : (s.port p).frame = some ⟨code, .answered a⟩) (hand : a.hand = .label slot serial)
    (before : a.shifted < a.response.length) : exec (.labelRelease p) s =
      .next ((s.setPhase p code (.answered { a with shifted := a.response.length })).releaseLabel slot serial) := by
  have next : a.nextRelease = some a.response.length := by
    rw [Answer.nextRelease_last (.inl ⟨_, _, hand⟩), if_pos before]
  have released := releaseStep_released (isMine := Handover.isLabel) inProgress (by rw [hand]; rfl) next
  rw [hand] at released
  exact congrArg Host.Outcome.next released

/-- R162: a label taken before frees nothing. -/
theorem State.releaseLabel_other {s : State} {slot : Fin 2} {serial : BitVec 32}
    (other : ∀ x, s.bnc.slots[slot] = some x → x.serial ≠ serial) : s.releaseLabel slot serial = s := by
  refine if_neg fun held => ?_
  obtain ⟨x, inSlot, same⟩ := (Option.any_eq_true ..).mp held
  exact other x inSlot (by simpa using same)

/-- R162: the slot freed, and the take indicator at the other one. -/
def State.slotFreed (s : State) (slot : Fin 2) : State :=
  { s with bnc.slots := s.bnc.slots.set slot.val none slot.isLt, bnc.take := 1 - slot }

theorem State.releaseLabel_held {s : State} {slot : Fin 2} {x : Label} (held : s.bnc.slots[slot] = some x) :
    s.releaseLabel slot x.serial = (s.slotFreed slot).compose :=
  if_pos (by rw [held]; simp)

theorem State.slot_slotFreed (s : State) (slot : Fin 2) : (s.slotFreed slot).bnc.slots[slot] = none := by
  simp [State.slotFreed]

theorem State.slot_slotFreed_other (s : State) (slot : Fin 2) :
    (s.slotFreed slot).bnc.slots[1 - slot] = s.bnc.slots[1 - slot] := by
  revert slot
  simp [State.slotFreed, Fin.forall_fin_two]

theorem State.slots_labelWritten {s : State} {slot : Fin 2} (compose : s.bnc.compose = slot) (b : BinId)
    (rest : List BinId) : (s.labelWritten b rest).bnc.slots[slot] = some (s.labelOf b) ∧
      (s.labelWritten b rest).bnc.slots[1 - slot] = s.bnc.slots[1 - slot] := by
  subst compose
  have places : ∀ c : Fin 2, (s.bnc.slots.set c.val (some (s.labelOf b)) c.isLt)[c] = some (s.labelOf b) ∧
      (s.bnc.slots.set c.val (some (s.labelOf b)) c.isLt)[1 - c] = s.bnc.slots[1 - c] := by
    simp [Fin.forall_fin_two]
  exact places _

theorem State.labelOf_eq {s : State} {b : BinId} {i : OrderId} {o : Order} (bound : (s.bin b).order = some i)
    (listed : s.order i = some o) : s.labelOf b = ⟨s.bnc.serial, i, b, (s.bin b).isPartial, o.profile,
      (s.bin b).dropped, (s.bin b).bundle⟩ := by
  rw [State.labelOf, State.boundOrder_eq_some bound listed, bound]
  rfl

theorem State.bnc_composeLabel {s : State} {b : BinId} {i : OrderId} (bound : (s.bin b).order = some i)
    (rest : List BinId) : (s.composeLabel b rest).bnc =
      ((s.labelWritten b rest).modBin b fun x => { x with state := .labelled }).bnc := by
  rw [State.composeLabel_eq bound]
  rfl

/-- R160, R161: what the composition of a bin's label makes of the bins, the book and the ports. -/
theorem State.composeLabel_spec {s : State} {b : BinId} {i : OrderId} {o : Order} (bound : (s.bin b).order = some i)
    (listed : s.order i = some o) (rest : List BinId) {slot : Fin 2} (compose : s.bnc.compose = slot) {t : State}
    (composed : s.composeLabel b rest = t) :
    t.bnc.slots[slot] = some ⟨s.bnc.serial, i, b, (s.bin b).isPartial, o.profile, (s.bin b).dropped, (s.bin b).bundle⟩ ∧
    t.bnc.slots[1 - slot] = s.bnc.slots[1 - slot] ∧
    (t.bnc.compose = 1 - slot ∧ t.bnc.take = s.bnc.take ∧ t.bnc.serial = s.bnc.serial + 1 ∧ t.bnc.waitList = rest) ∧
    (t.bin b = { s.bin b with state := .labelled } ∧ ∀ c, c ≠ b → t.bin c = s.bin c) ∧
    t.book = s.book.map (fun y =>
      if y.id = i then { y with labelled := y.labelled + 1, opened := y.opened - 1 } else y) ∧
    t.ports = ((s.raise .binState 4 0 0 b.val).raise .labelReady (s.bin b).isPartial.toNat 0 0 b.val).ports := by
  subst compose composed
  obtain ⟨filled, kept⟩ := State.slots_labelWritten (s := s) rfl b rest
  rw [State.labelOf_eq bound listed] at filled
  have bin : ∀ c, (s.composeLabel b rest).bin c = if c = b then { s.bin b with state := .labelled } else s.bin c :=
    fun c => by
      rw [State.bin, State.bnc_composeLabel bound]
      exact State.bin_modBin ..
  refine ⟨?_, ?_, ?_, ⟨by rw [bin, if_pos rfl], fun c other => by rw [bin, if_neg other]⟩, ?_, ?_⟩
  · rw [State.bnc_composeLabel bound]
    exact filled
  · rw [State.bnc_composeLabel bound]
    exact kept
  · rw [State.bnc_composeLabel bound]
    exact ⟨rfl, rfl, rfl, rfl⟩
  · rw [State.composeLabel_eq bound]
    rfl
  · rw [State.composeLabel_eq bound]
    rfl

section
variable {p : PortId} {s : State} {code : Byte} {a : Answer} {slot : Fin 2} {x : Label}
  (inProgress : (s.port p).frame = some ⟨code, .answered a⟩) (hand : a.hand = .label slot x.serial)
  (before : a.shifted < a.response.length) (held : s.bnc.slots[slot] = some x)
include inProgress hand before held

/-- R160, R162: with no bin that waits, or the counter run out, the slot is freed and no more. -/
theorem exec_labelRelease_frees (stops : s.bnc.waitList = [] ∨ s.bnc.serial = 4294967295) :
    exec (.labelRelease p) s = .next ((s.setPhase p code (.answered
      { a with shifted := a.response.length })).slotFreed slot) := by
  rw [exec_labelRelease inProgress hand before, State.releaseLabel_held (s := s.setPhase p code _) held,
    State.compose_stops]
  rcases stops with none | last
  · exact .inl none
  · exact .inr (by simp [Bins.mayCompose, State.slotFreed, last])

variable {b : BinId} {rest : List BinId} {i : OrderId} {o : Order} (waiting : s.bnc.waitList = b :: rest)
  (counts : s.bnc.serial ≠ 4294967295) (compose : s.bnc.compose = slot) (other : s.bnc.slots[1 - slot] ≠ none)
  (bound : (s.bin b).order = some i)
include waiting counts compose other bound

/-- R160, R162: with a bin that waits, its label is composed into the slot freed. -/
theorem exec_labelRelease_composes : exec (.labelRelease p) s = .next (((s.setPhase p code (.answered
    { a with shifted := a.response.length })).slotFreed slot).composeLabel b rest) := by
  subst compose
  rw [exec_labelRelease inProgress hand before, State.releaseLabel_held (s := s.setPhase p code _) held]
  generalize phase : Phase.answered { a with shifted := a.response.length } = ph
  refine congrArg Host.Outcome.next (State.compose_once waiting ?_ ?_)
  · simp only [Bins.mayCompose, Bool.and_eq_true, Option.isNone_iff_eq_none, bne_iff_ne]
    exact ⟨(s.setPhase p code ph).slot_slotFreed s.bnc.compose, counts⟩
  · have kept := (State.slots_labelWritten (s := (s.setPhase p code ph).slotFreed s.bnc.compose) rfl b rest).2
    rw [State.bnc_composeLabel (s := (s.setPhase p code ph).slotFreed s.bnc.compose) bound]
    refine Bool.and_eq_false_iff.mpr (.inl (Option.isNone_eq_false_iff.mpr (Option.isSome_iff_ne_none.mpr ?_)))
    exact (kept.trans ((s.setPhase p code ph).slot_slotFreed_other s.bnc.compose)).trans_ne other

end

/-- Settles O15: the read, its release with and without a label that is composed, and the bytes. -/
theorem labelsAreTakenReleasedAndComposed : Obligations.LabelsAreTakenReleasedAndComposed := by
  refine ⟨fun p s ready => ⟨exec_takeLabel_notFound ready, fun x held => ⟨x.bytes_length, exec_takeLabel_opens ready held,
      fun bs => ⟨(exec_takeLabel_ends ready held bs).1, fun whole =>
        ⟨_, ?takes, (exec_takeLabel_ends ready held bs).2 whole⟩⟩⟩⟩,
    fun p s code a slot serial inProgress hand before => ⟨fun other => ?gone, fun x held same =>
      ⟨?frees, fun b rest i o waiting counts compose full bound listed => ?composes⟩⟩,
    fun two four twoEq fourEq x => ?bytes⟩
  case takes =>
    have long := x.bytes_length
    rw [exec_labelRelease (by rw [State.port_setPhase, if_pos rfl]) rfl (by dsimp only; omega), State.setPhase_setPhase]
    dsimp only
    rw [long]
  case gone =>
    rw [exec_labelRelease inProgress hand before, State.releaseLabel_other (s := s.setPhase p code _) other]
  case frees =>
    subst same
    exact exec_labelRelease_frees inProgress hand before held
  case composes =>
    subst same
    refine ⟨_, exec_labelRelease_composes inProgress hand before held waiting counts compose full bound, ?_⟩
    generalize Phase.answered { a with shifted := a.response.length } = ph
    have freed : s.unchangedBut [.bins, .ports] ((s.setPhase p code ph).slotFreed slot) :=
      (State.setPhase_unchangedBut s p code ph).comp (State.Evolves.of_fields (bs := [.bins])).frame
    refine ⟨freed.comp (State.composeLabel_evolves _ b rest).frame, ?_⟩
    obtain ⟨filled, kept, counters, bins, book, ports⟩ :=
      State.composeLabel_spec (s := (s.setPhase p code ph).slotFreed slot) bound listed rest compose rfl
    rw [State.slot_slotFreed_other] at kept
    exact ⟨filled, kept, counters, bins, book, ports⟩
  case bytes =>
    obtain rfl : two = fun n => [n / 256, n] := funext twoEq
    obtain rfl : four = fun n => [n / 16777216, n / 65536, n / 256, n] := funext fourEq
    simp only [List.map_append, List.map_flatMap, Label.bytes, Bundle.bytes, ← List.append_assoc]
    cases x.isPartial <;> rfl

end Sys2Proof.Machine

/-! The six state reads: what each answers, and the bytes of the answers. -/

namespace Sys2Proof.Machine

/-! ## A state read hands over nothing -/

theorem State.stripAnswer_hand (s : State) (n : StripNum) : (s.stripAnswer n).hand = .nothing := by
  unfold State.stripAnswer
  split
  · rfl
  · split
    · rfl
    · split <;> rfl

theorem answerStripRead_hand (p : PortId) (ps : List Byte) (s : State) : (answerStripRead p ps s).hand = .nothing := by
  unfold answerStripRead
  split
  · exact s.stripAnswer_hand _
  · rfl

theorem answerLaneRead_hand (p : PortId) (ps : List Byte) (s : State) : (answerLaneRead p ps s).hand = .nothing := by
  unfold answerLaneRead
  split
  · split <;> rfl
  · rfl

theorem State.mapAnswer_hand (s : State) (e : Option Edition) (profile face n : Nat) :
    (s.mapAnswer e profile face n).hand = .nothing := by
  unfold State.mapAnswer
  split
  · split <;> rfl
  · rfl

theorem answerMapRead_hand (p : PortId) (ps : List Byte) (s : State) : (answerMapRead p ps s).hand = .nothing := by
  unfold answerMapRead
  split
  · exact s.mapAnswer_hand _ _ _ _
  · rfl

theorem State.orderAnswer_hand (s : State) (i : OrderId) : (s.orderAnswer i).hand = .nothing := by
  unfold State.orderAnswer
  split
  · rfl
  · split <;> rfl

theorem answerOrderRead_hand (p : PortId) (ps : List Byte) (s : State) : (answerOrderRead p ps s).hand = .nothing := by
  unfold answerOrderRead
  split
  · exact s.orderAnswer_hand _
  · rfl

theorem State.binAnswer_hand (s : State) (b : Byte) : (s.binAnswer b).hand = .nothing := by
  unfold State.binAnswer
  split
  · rfl
  · split
    · rfl
    · split <;> rfl

theorem answerBinRead_hand (p : PortId) (ps : List Byte) (s : State) : (answerBinRead p ps s).hand = .nothing := by
  unfold answerBinRead
  split
  · exact s.binAnswer_hand _
  · rfl

/-- R29, R53, R79, R110, R137, R167: whatever is clocked, a state read changes nothing but the result. -/
theorem exec_stateRead_ends {c : Cmd} (listed : c ∈ [Cmd.stripRead, .laneRead, .mapRead, .channelRead, .orderRead, .binRead])
    {p : PortId} {s : State} (ready : s.ready p c) (bs : List Byte) :
    ∃ r, exec (frameInstr c p (.ends bs)) s = .next (s.setResult p r) ∧ (bs.length < cmdParams c → r = .length) := by
  have quiet : ∃ answer, (∀ ps u, (answer p ps u).hand = .nothing) ∧
      ∀ st u, exec (frameInstr c p st) u = .next (readStep c answer p st u) := by
    simp only [List.mem_cons, List.not_mem_nil, or_false] at listed
    rcases listed with rfl | rfl | rfl | rfl | rfl | rfl
    · exact ⟨_, answerStripRead_hand p, fun _ _ => rfl⟩
    · exact ⟨_, answerLaneRead_hand p, fun _ _ => rfl⟩
    · exact ⟨_, answerMapRead_hand p, fun _ _ => rfl⟩
    · exact ⟨answerChannelRead, fun _ _ => rfl, fun _ _ => rfl⟩
    · exact ⟨_, answerOrderRead_hand p, fun _ _ => rfl⟩
    · exact ⟨_, answerBinRead_hand p, fun _ _ => rfl⟩
  obtain ⟨answer, quiet, hexec⟩ := quiet
  obtain ⟨r, ended, short⟩ := readStep_ends_quiet c answer ready quiet bs
  exact ⟨r, (hexec _ _).trans (congrArg Host.Outcome.next ended), short⟩

/-! ## STRIP_READ -/

theorem State.strip_eq_none {s : State} {n : StripNum} (absent : s.carried n = false) : s.strip n = none := by
  rw [State.carried, Bool.or_eq_false_iff] at absent
  refine List.find?_eq_none.mpr fun r inTrack => ?_
  simpa using List.any_eq_false.mp absent.1 r inTrack

theorem State.piece_eq_none {s : State} {n : StripNum} (absent : s.carried n = false) (k : Nat) : s.piece n k = none := by
  rw [State.carried, Bool.or_eq_false_iff] at absent
  refine List.find?_eq_none.mpr fun r inTrack => ?_
  have other := List.any_eq_false.mp absent.2 r inTrack
  simp only [Bool.and_eq_true, not_and]
  exact fun same => absurd same other

theorem State.stripAnswer_absent {s : State} {n : StripNum} (isNumber : n ≠ 0) (absent : s.carried n = false) :
    s.stripAnswer n = .refuse .notFound := by
  have none : s.piecesNumbered n = [] :=
    List.filterMap_eq_nil_iff.mpr fun k _ => State.piece_eq_none absent k
  rw [State.stripAnswer, if_neg isNumber, State.strip_eq_none absent, none]

theorem State.stripAnswer_strip {s : State} {n : StripNum} {r : StripRec} (isNumber : n ≠ 0) (found : s.strip n = some r) :
    s.stripAnswer n = .given (be8 1 ++ r.bytes) .nothing := by
  rw [State.stripAnswer, if_neg isNumber, found]

theorem State.stripAnswer_pieces {s : State} {n : StripNum} (isNumber : n ≠ 0) (none : s.strip n = none)
    (some_ : s.piecesNumbered n ≠ []) : s.stripAnswer n =
      .given (be8 (s.piecesNumbered n).length ++ (s.piecesNumbered n).flatMap PieceRec.bytes) .nothing := by
  rw [State.stripAnswer, if_neg isNumber, none]
  cases pieces : s.piecesNumbered n with
  | nil => exact absurd pieces some_
  | cons q qs => rfl

/-- Table 10-12: the eight flags of a strip record. -/
theorem stripFlags_eq (r : StripRec) : stripFlags r = r.grantPos.isSome.toNat + 2 * r.lead.isSome.toNat +
    4 * r.length.isSome.toNat + 8 * r.width.isSome.toNat + 16 * r.thickness.isSome.toNat +
    32 * r.moisture.isSome.toNat + 64 * r.outOfRange.toNat + 128 * r.traced.toNat := by
  simp only [stripFlags, flagBits]
  omega

theorem pieceFlags_eq (r : PieceRec) :
    pieceFlags r = r.tongueDone.toNat + 2 * r.grooveDone.toNat + 4 * r.traced.toNat := by
  simp only [pieceFlags, flagBits]
  omega

theorem placeBytes_eq {place : Option Segment → List Byte} (some_ : ∀ g : Segment, place (some g) = g.bytes)
    (none_ : place none = [0, 0, 0, 0, 0]) (segments : List Segment) : placeBytes segments =
      place segments[0]? ++ place segments[1]? ++ place segments[2]? ++ place segments[3]? := by
  have one : ∀ i : Nat, (segments.getD i ⟨0, 0, 0⟩).bytes = place segments[i]? := fun i => by
    rw [List.getD_eq_getElem?_getD]
    cases segments[i]? with
    | none => exact none_.symm
    | some g => exact (some_ g).symm
  simp only [placeBytes, one, List.append_assoc]
  show _ ++ (_ ++ (_ ++ (_ ++ []))) = _
  rw [List.append_nil]

/-! ## LANE_READ -/

theorem laneOfCode_eq_some {b : Byte} {l : Lane} (h : b.toNat = laneCode l) : laneOfCode b = some l := by
  rw [laneOfCode, h]
  cases l <;> rfl

theorem laneOfCode_eq_none {b : Byte} (h : 2 ≤ b.toNat) : laneOfCode b = none := List.getElem?_eq_none h

theorem LaneCtl.spindle_eq (c : LaneCtl) : c.spindle = (c.state ≠ .off && c.state ≠ .toolChange) := by
  cases stands : c.state <;> simp [LaneCtl.spindle, stands]

theorem LaneCtl.feed_eq (c : LaneCtl) : c.feed = (c.state = .run || c.state = .hold || c.state = .drain) := by
  cases stands : c.state <;> simp [LaneCtl.feed, stands]

theorem State.laneFlags_eq (s : State) (l : Lane) : s.laneFlags l = (s.lane l).blankWaiting.toNat +
    2 * (s.lane l).blankReady.toNat + 4 * (s.lane l).spindle.toNat + 8 * (s.lane l).feed.toNat +
    16 * (s.lane l).releaseTimer.isSome.toNat + 32 * (s.lane l).outfeedTimer.isSome.toNat +
    64 * (s.frontAtExit l).toNat := by
  simp only [State.laneFlags, flagBits, LaneCtl.releaseOutput, LaneCtl.outfeedOutput]
  omega

/-! ## MAP_READ -/

theorem Edition.ofCode_eq_some {b : Byte} {e : Edition} (h : b.toNat = e.code) : Edition.ofCode b = some e := by
  rw [Edition.ofCode, h]
  cases e <;> rfl

theorem Edition.ofCode_eq_none {b : Byte} (h : 1 < b.toNat) : Edition.ofCode b = none := List.getElem?_eq_none h

theorem State.mapAnswer_badField {s : State} {b : Byte} {profile face n : Nat}
    (bad : 1 < b.toNat ∨ 7 < profile ∨ 15 < face ∨ n = 0 ∨ 128 < n) :
    s.mapAnswer (Edition.ofCode b) profile face n = .refuse .badField := by
  unfold State.mapAnswer
  cases named : Edition.ofCode b with
  | none => rfl
  | some e =>
    refine if_neg fun good => ?_
    have isEdition : ¬ 1 < b.toNat := fun above => by
      rw [Edition.ofCode_eq_none above] at named
      cases named
    omega

/-! ## ORDER_READ -/

theorem State.order_of_book {s : State} {before after : List Order} {o : Order} (book : s.book = before ++ o :: after)
    (first : ∀ x ∈ before, x.id ≠ o.id) : s.order o.id = some o := by
  rw [State.order, book, List.find?_append, List.find?_eq_none.mpr (by simpa using first)]
  simp

theorem State.putSequence_of_book {s : State} {before after : List Order} {o : Order}
    (book : s.book = before ++ o :: after) (first : ∀ x ∈ before, x.id ≠ o.id) :
    s.putSequence o.id = before.length + 1 := by
  have none : before.findIdx (fun x => x.id == o.id) = before.length := List.findIdx_eq_length.mpr (by simpa using first)
  rw [State.putSequence, book, List.findIdx_append, none, List.findIdx_cons]
  simp

/-! ## Settling the six reads -/

section
variable {c : Cmd} {answer : PortId → List Byte → State → Answer} {p : PortId} {s : State}

/-- R183: a state read at its last parameter byte answers for the state as it stands then. -/
theorem readStep_taken (ready : s.ready p c) {bs : List Byte} {b : Byte} (last : bs.length + 1 = cmdParams c)
    (same : ∀ ph, answer p (bs ++ [b]) (s.setPhase p c.code ph) = answer p (bs ++ [b]) s) :
    readStep c answer p (.bytes (bs ++ [b])) s = s.setPhase p c.code (.answered (answer p (bs ++ [b]) s)) := by
  rw [readStep_params c answer ready last, same]

end

theorem flatMap_be8 {α : Type} (f : α → Nat) (xs : List α) :
    (xs.flatMap fun x => be8 (f x)) = xs.map fun x => BitVec.ofNat 8 (f x) := by
  induction xs with
  | nil => rfl
  | cons x xs ih => rw [List.flatMap_cons, ih]; rfl

/-- The places of a list of bin numbers, of which those beyond it are zero. -/
theorem binNumbers_eq (bins : List BinId) (n : Nat) : ((List.range n).flatMap fun i => be8 ((bins[i]?).elim 0 Fin.val)) =
    (List.range n).map fun i => match bins[i]? with | some b => BitVec.ofNat 8 b.val | none => 0 := by
  rw [flatMap_be8]
  exact List.map_congr_left fun i _ => by cases bins[i]? <;> rfl

/-- Settles O17: read by read. -/
theorem stateReadsShowAndChangeNothing : Obligations.StateReadsShowAndChangeNothing := by
  intro p s one two three four oneEq twoEq threeEq fourEq bit place recipe entries bitEq placeEq recipeEq entriesEq
  obtain rfl : one = BitVec.ofNat 8 := funext oneEq
  obtain rfl : two = be16 := funext twoEq
  obtain rfl : three = be24 := funext threeEq
  obtain rfl : four = be32 := funext fourEq
  obtain rfl : bit = Bool.toNat := funext fun v => (bitEq v).trans (by cases v <;> rfl)
  obtain rfl : recipe = Recipe.bytes := funext recipeEq
  obtain rfl : entries = expectedBytes := funext entriesEq
  have places := placeBytes_eq (fun g => placeEq (some g)) (placeEq none)
  refine ⟨fun c listed ready => exec_stateRead_ends listed ready, fun ready => ?channel, fun ready hi lo => ?strip,
    fun ready b => ?lane, fun ready e pr fc n => ?map, fun ready hi lo => ?order, fun ready b => ?bin⟩
  case channel =>
    refine ⟨BitVec.ofNat 8 s.guardLevel.toNat, by cases s.guardLevel <;> decide, ?_⟩
    refine congrArg Host.Outcome.next ((readStep_opens_taken .channelRead answerChannelRead ready rfl).trans ?_)
    have bytes : s.channelBytes = fun c =>
        [BitVec.ofNat 8 ((match (s.channel c).state with | .idle => 0 | .pulsing _ => 1 | .recovering _ => 2) +
            128 * (s.fireOutput c).toNat)] ++
          be16 (s.channel c).current.width ++ be16 (s.channel c).current.recovery ++
          match (s.channel c).pending with
          | some x => [1] ++ be16 x.width ++ be16 x.recovery
          | none => [0, 0, 0, 0, 0] := funext fun c => by
      dsimp only [State.channelBytes]
      cases (s.channel c).state <;> cases (s.channel c).pending <;> rfl
    show s.setPhase p _ (.answered (.given s.channelResponse .nothing)) = _
    rw [State.channelResponse, bytes]
    rfl
  case strip =>
    refine ⟨s.stripAnswer (num16 hi lo), congrArg Host.Outcome.next
      (readStep_taken (answer := answerStripRead) ready (bs := [hi]) (b := lo) rfl fun _ => rfl), s.stripAnswer_hand _, ?_⟩
    refine ⟨fun zero => ?_, fun isNumber absent => ?_, fun isNumber r found => ?_, fun isNumber none rs pieces some_ => ?_⟩
    · rw [State.stripAnswer, if_pos zero]
      rfl
    · rw [State.stripAnswer_absent isNumber absent]
      rfl
    · rw [State.stripAnswer_strip isNumber found]
      refine ⟨rfl, ?_⟩
      rw [← stripFlags_eq]
      cases plan : r.plan with
      | none =>
        simp only [Answer.given, StripRec.bytes, plan]
        rfl
      | some x =>
        simp only [Answer.given, StripRec.bytes, plan, planBytes, places, List.append_assoc]
        cases x.override <;> rfl
    · obtain rfl : rs = s.piecesNumbered (num16 hi lo) := pieces
      rw [State.stripAnswer_pieces isNumber none some_]
      refine ⟨rfl, congrArg (_ ++ List.flatMap · _) (funext fun r => ?_)⟩
      rw [← pieceFlags_eq, PieceRec.bytes, reasonCode.eq_def]
      cases r.state <;> cases r.reason <;> rfl
  case lane =>
    refine ⟨answerLaneRead p [b] s, congrArg Host.Outcome.next
      (readStep_taken (answer := answerLaneRead) ready (bs := []) (b := b) rfl fun _ => rfl), answerLaneRead_hand p [b] s,
      fun above => ?_, fun l named c stands => ?_⟩
    · rw [answerLaneRead, laneOfCode_eq_none above]
      rfl
    · subst stands
      rw [answerLaneRead, laneOfCode_eq_some named]
      refine ⟨rfl, ?_⟩
      rw [← LaneCtl.spindle_eq, ← LaneCtl.feed_eq, ← State.laneFlags_eq]
      have queue : queueBytes (s.queue l) = (List.range 12).flatMap fun i =>
          match (s.queue l)[i]? with | some r => be16 r.number.toNat | none => [0, 0] :=
        congrArg (List.flatMap · _) (funext fun i => by cases (s.queue l)[i]? <;> rfl)
      simp only [Answer.given, State.laneResponse, queue]
      cases (s.lane l).pending <;> simp only [List.append_assoc] <;> rfl
  case map =>
    refine ⟨s.mapAnswer (Edition.ofCode e) pr.toNat fc.toNat n.toNat, congrArg Host.Outcome.next
      (readStep_taken (answer := answerMapRead) ready (bs := [e, pr, fc]) (b := n) rfl fun _ => rfl), s.mapAnswer_hand _ _ _ _,
      fun bad => ?_, fun ed named profile face positive listed => ?_⟩
    · rw [State.mapAnswer_badField]
      · rfl
      · have zero : n = 0 → n.toNat = 0 := fun none => by rw [none]; rfl
        exact bad.imp_right (Or.imp_right (Or.imp_right (Or.imp_left zero)))
    · rw [Edition.ofCode_eq_some named, State.mapAnswer, if_pos ⟨profile, face, positive, listed⟩]
      refine ⟨rfl, ?_⟩
      simp only [Answer.given, State.mapResponse, Grading.entriesFrom, flatMap_be8]
      rfl
  case order =>
    refine ⟨s.orderAnswer (num16 hi lo), congrArg Host.Outcome.next
      (readStep_taken (answer := answerOrderRead) ready (bs := [hi]) (b := lo) rfl fun _ => rfl), s.orderAnswer_hand _,
      fun zero => ?_, fun isId absent => ?_, fun isId before o after book named first => ?_⟩
    · rw [State.orderAnswer, if_pos zero]
      exact ⟨rfl, rfl⟩
    · rw [State.orderAnswer, if_neg isId, absent]
      rfl
    · rw [State.orderAnswer, if_neg isId, ← named, State.order_of_book book first]
      refine ⟨rfl, ?_⟩
      simp only [Answer.given, State.orderResponse, State.putSequence_of_book book first, binPlaces, binNumbers_eq]
      simp only [Order.putBytes, be8, flagByte, List.append_assoc]
      rfl
  case bin =>
    refine ⟨s.binAnswer b, congrArg Host.Outcome.next
      (readStep_taken (answer := answerBinRead) ready (bs := []) (b := b) rfl fun _ => rfl), s.binAnswer_hand _,
      fun above => ?_, fun head headEq => ?_⟩
    · have notTen : b ≠ 10 := by bv_omega
      have notEleven : b ≠ 11 := by bv_omega
      rw [State.binAnswer, binOfCode_eq_none (by omega), if_neg notTen, if_neg notEleven]
      rfl
    · have label : s.labelPart = head := by
        rw [headEq, State.labelPart, waitPlaces, binNumbers_eq]
        rfl
      refine ⟨fun i named x stands => ?_, fun ten => ?_, fun eleven => ?_⟩
      · subst stands
        rw [State.binAnswer, binOfCode_eq_some named]
        refine ⟨rfl, ?_⟩
        simp only [Answer.given, label, OrderBin.bytes, OrderBin.committed, Bundle.bytes, flagByte, be8,
          List.append_assoc]
        cases (s.bin i).order <;> rfl
      · subst ten
        have answer : s.binAnswer 10 = .given (s.labelPart ++ s.bnc.reject.bytes) .nothing := rfl
        rw [answer, label]
        refine ⟨rfl, ?_⟩
        simp only [Answer.given, RejectBin.bytes, RejectBin.committed, List.append_assoc]
      · subst eleven
        have answer : s.binAnswer 11 = .given (s.labelPart ++ be16 s.bnc.runoutCount) .nothing := rfl
        rw [answer, label]
        exact ⟨rfl, rfl⟩

end Sys2Proof.Machine

/-! The belt, BELT_RUN and MARKS_SET. -/

namespace Sys2Proof.Machine

/-! ## Forward counts -/

/-- R14, R15, R17: what a forward count leaves of the belt until it advances. -/
def State.beltStands (s t : State) : Prop :=
  t.track.position = s.track.position ∧ t.track.backlash = s.track.backlash ∧ t.track.marks = s.track.marks

theorem State.settle_beltStands (s : State) : s.beltStands s.settle := by
  refine State.settleWhile_keeps (P := s.beltStands) (fun t d _ => State.takeDue_keeps (fun e stands => ?_)
    (fun _ _ _ stands => stands) t d) (fun _ stands => stands) _ s ⟨rfl, rfl, rfl⟩
  obtain ⟨position, backlash, marks⟩ := stands
  exact ⟨e.position.trans position, e.backlash.trans backlash, e.marks.trans marks⟩

theorem State.settle_nothing {s : State} (nothing : s.dueHere = []) : s.settle = s := by
  rw [State.settle, State.dueBound, State.settleWhile, nothing]

theorem State.forward_backlash {s : State} (h : 0 < s.track.backlash) :
    s.forward = { s with track.backlash := s.track.backlash - 1 } := if_pos h

theorem State.forward_advance {s : State} (h : s.track.backlash = 0) : s.forward = s.settle.advance :=
  if_neg (by omega)

theorem State.advance_free {s : State} (free : s.gauge.eye ≠ .trailHeld) :
    s.advance = { s with track.position := s.track.position + 1 } := by
  unfold State.advance
  cases eye : s.gauge.eye with
  | trailHeld => exact absurd eye free
  | clear => rfl
  | covered => rfl

theorem State.advance_held {s : State} (held : s.gauge.eye = .trailHeld) :
    s.advance = State.objectEnds { s with track.position := s.track.position + 1 } := by
  rw [State.advance, held]

/-- R65: the object's end does not heed the eye's state. -/
theorem State.objectEnds_eye (s : State) (eye : EyeState) :
    State.objectEnds { s with gauge.eye := eye } = s.objectEnds := rfl

theorem State.advance_belt (s : State) : s.advance.track.position = s.track.position + 1 ∧
    s.advance.track.backlash = s.track.backlash ∧ s.advance.track.marks = s.track.marks := by
  by_cases held : s.gauge.eye = .trailHeld
  · rw [State.advance_held held]
    have ended := State.objectEnds_evolves { s with track.position := s.track.position + 1 }
    exact ⟨ended.position, ended.backlash, ended.marks⟩
  · rw [State.advance_free held]
    exact ⟨rfl, rfl, rfl⟩

theorem BitVec.succ_ne_self (p : Pos) : p + 1 ≠ p := by bv_omega

/-- R16: with nothing due and no held edge, a count heeds no BELT_RUN. -/
theorem State.forward_beltRun {s : State} (nothing : s.dueHere = []) (free : s.gauge.eye ≠ .trailHeld) (b : Bool) :
    State.forward { s with beltRun := b } = { s.forward with beltRun := b } := by
  rcases Nat.eq_zero_or_pos s.track.backlash with none | some_
  · rw [State.forward_advance none, State.settle_nothing nothing, State.advance_free free,
      State.forward_advance (s := { s with beltRun := b }) none,
      State.settle_nothing (s := { s with beltRun := b }) nothing,
      State.advance_free (s := { s with beltRun := b }) free]
  · rw [State.forward_backlash some_, State.forward_backlash (s := { s with beltRun := b }) some_]

/-! ## The mark table of a frame -/

/-- R18: sixteen offsets make a mark table. -/
theorem marksOfOffsets_eq {xs : List Nat} (length : xs.length = 16) :
    ∃ m : Marks, marksOfOffsets xs = some m ∧ m.offsets = xs := by
  match xs, length with
  | [d, t, e, s, g0, g1, g2, g3, g4, g5, g6, g7, g8, g9, g10, r], _ => exact ⟨_, rfl, rfl⟩

/-- R18: the offsets are three bytes each. -/
theorem offsetsOfBytes_eq (n : Nat) (bs : List Byte) (length : bs.length = 3 * n) : offsetsOfBytes bs =
    (List.range n).map fun i => word24 (bs.getD (3 * i) 0) (bs.getD (3 * i + 1) 0) (bs.getD (3 * i + 2) 0) := by
  induction n generalizing bs with
  | zero =>
    obtain rfl := List.eq_nil_of_length_eq_zero length
    rfl
  | succ n ih =>
    match bs, length with
    | b2 :: b1 :: b0 :: rest, length =>
      rw [offsetsOfBytes, ih rest (by simp only [List.length_cons] at length; omega), List.range_succ_eq_map,
        List.map_cons, List.map_map]
      rfl

theorem marksOfBytes {bs : List Byte} (length : bs.length = 48) : ∃ m : Marks,
    marksOfOffsets (offsetsOfBytes bs) = some m ∧ m.offsets =
      (List.range 16).map fun i => word24 (bs.getD (3 * i) 0) (bs.getD (3 * i + 1) 0) (bs.getD (3 * i + 2) 0) := by
  rw [← offsetsOfBytes_eq 16 bs length]
  refine marksOfOffsets_eq ?_
  rw [offsetsOfBytes_eq 16 bs length, List.length_map, List.length_range]

theorem rising_iff (xs : List Nat) : rising xs = true ↔ xs.IsChain (· < ·) := by
  induction xs with
  | nil => exact ⟨fun _ => .nil, fun _ => rfl⟩
  | cons x xs ih =>
    cases xs with
    | nil => exact ⟨fun _ => .singleton x, fun _ => rfl⟩
    | cons y rest => rw [rising, Bool.and_eq_true, decide_eq_true_eq, ih, List.isChain_cons_cons]

/-- R18: the gate offsets rise, the first of them beyond the sort mark. -/
theorem rising_gates (m : Marks) : rising (m.sort :: m.gates.toList) = true ↔
    m.sort < m.gates[0] ∧ ∀ i j : GateId, i < j → m.gates[i] < m.gates[j] := by
  have pairs : m.gates.toList.Pairwise (· < ·) ↔ ∀ i j : GateId, i < j → m.gates[i] < m.gates[j] := by
    rw [List.pairwise_iff_getElem]
    constructor
    · intro rise i j before
      simpa using rise i j (by simp) (by simp) before
    · intro rise i j hi hj before
      simp only [Vector.length_toList] at hi hj
      simpa using rise ⟨i, hi⟩ ⟨j, hj⟩ before
  rw [rising_iff, List.isChain_iff_pairwise, List.pairwise_cons, pairs]
  refine and_congr_left fun rise => ⟨fun all => all _ (by simp), fun first x listed => ?_⟩
  obtain ⟨i, bound, rfl⟩ := List.getElem_of_mem listed
  rw [Vector.length_toList] at bound
  rcases Nat.eq_zero_or_pos i with rfl | later
  · simpa using first
  · exact first.trans (by simpa using rise 0 ⟨i, bound⟩ later)

theorem Marks.passes_iff (m : Marks) (maxStrip dropWindow : Nat) : m.passes maxStrip dropWindow = true ↔
    (∀ x ∈ m.offsets, x < 1048576) ∧ maxStrip < m.deadline ∧ m.deadline < m.trim ∧ m.trim + maxStrip ≤ m.endmatch ∧
      m.endmatch + maxStrip ≤ m.sort ∧ m.sort < m.gates[0] ∧ (∀ i j : GateId, i < j → m.gates[i] < m.gates[j]) ∧
      m.gates[10] + dropWindow < m.runout := by
  simp only [Marks.passes, Bool.and_eq_true, List.all_eq_true, decide_eq_true_eq, rising_gates, and_assoc]

/-! ## MARKS_SET -/

theorem takeMarksSet_eq {bs : List Byte} (length : bs.length = 48) (s : State) : ∃ m : Marks,
    takeMarksSet bs s = setMarks m s ∧ m.offsets =
      (List.range 16).map fun i => word24 (bs.getD (3 * i) 0) (bs.getD (3 * i + 1) 0) (bs.getD (3 * i + 2) 0) := by
  obtain ⟨m, table, offsets⟩ := marksOfBytes length
  exact ⟨m, by rw [takeMarksSet, table], offsets⟩

theorem setMarks_state {s : State} (busy : s.allocated ≠ 0 ∨ s.beltRun = true) (m : Marks) :
    setMarks m s = (s, .state) := if_pos busy

/-- Settles O20: the table of the frame's bytes, and the checks on it. -/
theorem marksAreSetWhole : Obligations.MarksAreSetWhole := by
  intro p s bs ready length
  obtain ⟨m, table, offsets⟩ := takeMarksSet_eq length s
  refine ⟨fun busy => exec_taken ready rfl length (table.trans (setMarks_state busy m)), fun empty stopped =>
    ⟨m, offsets, ?_⟩⟩
  have free : ¬ (s.allocated ≠ 0 ∨ s.beltRun = true) := by simp [empty, stopped]
  have checks := m.passes_iff s.gauge.maxStrip s.bnc.dropWindow
  split
  case isTrue good =>
    refine exec_taken ready rfl length (t := { s with track.marks := m }) (table.trans ?_)
    rw [setMarks, if_neg free, if_pos (checks.mpr good)]
  case isFalse bad =>
    refine exec_taken ready rfl length (table.trans ?_)
    rw [setMarks, if_neg free, if_neg (mt checks.mp bad)]

/-! ## BELT_RUN -/

theorem takeRemoveStrip_running {s : State} (running : s.beltRun = true) {bs : List Byte} (length : bs.length = 2) :
    takeRemoveStrip bs s = (s, .state) := by
  match bs, length with
  | [n1, n0], _ => exact if_pos running

theorem takeRemoveSpan_running {s : State} (running : s.beltRun = true) {bs : List Byte} (length : bs.length = 6) :
    takeRemoveSpan bs s = (s, .state) := by
  match bs, length with
  | [f2, f1, f0, t2, t1, t0], _ => exact if_pos running

theorem takeLineClear_running {s : State} (running : s.beltRun = true) (bs : List Byte) :
    takeLineClear bs s = (s, .state) := if_pos running

theorem laneOfCode_code (l : Lane) : laneOfCode (BitVec.ofNat 8 (laneCode l)) = some l := by
  cases l <;> rfl

theorem takeLane_code (f : Lane → State → State × Result) (l : Lane) (s : State) :
    takeLane f [BitVec.ofNat 8 (laneCode l)] s = f l s := by
  rw [takeLane, laneOfCode_code]

/-- R16: the five commands that a running belt refuses. -/
theorem exec_running {c : Cmd} (listed : c ∈ [Cmd.removeStrip, .removeSpan, .lineClear, .marksSet]) {p : PortId} {s : State}
    (running : s.beltRun = true) (ready : s.ready p c) {bs : List Byte} (length : bs.length = cmdParams c) :
    exec (frameInstr c p (.ends bs)) s = .next (s.setResult p .state) := by
  simp only [List.mem_cons, List.not_mem_nil, or_false] at listed
  rcases listed with rfl | rfl | rfl | rfl
  · exact exec_taken ready rfl length (takeRemoveStrip_running running length)
  · exact exec_taken ready rfl length (takeRemoveSpan_running running length)
  · exact exec_taken ready rfl length (takeLineClear_running running bs)
  · obtain ⟨m, table, -⟩ := takeMarksSet_eq length s
    exact exec_taken ready rfl length (table.trans (setMarks_state (.inr running) m))

/-- Settles O18: the encoder by what is due and by the eye; BELT_RUN by the commands that test it. -/
theorem theBeltMoves : Obligations.TheBeltMoves := by
  refine ⟨fun s => ⟨fun some_ => congrArg Host.Outcome.next (State.forward_backlash some_), fun none nothing free => ?_,
      fun none nothing held start => ?_, fun none => ?_⟩,
    fun active s => rfl, fun p s bs running => ⟨fun c listed ready length => exec_running listed running ready length,
      fun ready l => ?_⟩, fun b s t nothing free counted => ?_, fun b s t counted => ?_, fun p s ready => ?_⟩
  · refine congrArg Host.Outcome.next ?_
    rw [State.forward_advance none, State.settle_nothing nothing, State.advance_free free]
  · refine congrArg Host.Outcome.next ?_
    rw [State.forward_advance none, State.settle_nothing nothing, State.advance_held held, State.trailEdge]
    dsimp only
    rw [if_neg (start ▸ BitVec.succ_ne_self _)]
    rfl
  · refine ⟨_, rfl, ?_⟩
    obtain ⟨position, backlash, marks⟩ := s.settle_beltStands
    obtain ⟨moved, paid, table⟩ := s.settle.advance_belt
    rw [State.forward_advance none]
    exact ⟨moved.trans (congrArg (· + 1) position), paid.trans (backlash.trans none), table.trans marks⟩
  · exact exec_taken (c := .removeLane) ready rfl rfl ((takeLane_code removeLane l s).trans (if_pos running))
  · obtain rfl : s.forward = t := Host.Outcome.next.inj counted
    exact congrArg Host.Outcome.next (State.forward_beltRun nothing free b)
  · obtain rfl : s.reverse = t := Host.Outcome.next.inj counted
    rfl
  · refine ⟨_, congrArg Host.Outcome.next (readStep_opens_taken .status answerStatus ready rfl), ?_⟩
    cases running : s.beltRun <;> simp [answerStatus, Answer.given, State.statusResponse_eq, running]

end Sys2Proof.Machine

/-! Removals by REMOVE_STRIP and REMOVE_SPAN: each record leaves its list with its schedule entries, and lanes may then
release. -/

namespace Sys2Proof.Machine

/-! ## Lanes that may release -/

/-- R12: what a change of the counts can lead to: the part's own work, in which queues grow, and neither the other
lists nor the schedule change. -/
structure State.Refills (s t : State) : Prop where
  evolves : s.Evolves removalBlocks t
  transit : t.track.transit = s.track.transit
  belt : t.track.belt = s.track.belt
  fire : t.fire = s.fire
  queues : ∀ l, ∃ new, t.queue l = s.queue l ++ new

theorem State.Refills.refl (s : State) : s.Refills s := ⟨.refl _ _, rfl, rfl, rfl, fun _ => ⟨[], (List.append_nil _).symm⟩⟩

theorem State.Refills.trans {s t u : State} (h : s.Refills t) (k : t.Refills u) : s.Refills u := by
  refine ⟨h.evolves.trans k.evolves, k.transit.trans h.transit, k.belt.trans h.belt, k.fire.trans h.fire, fun l => ?_⟩
  obtain ⟨new, grown⟩ := h.queues l
  obtain ⟨more, grown'⟩ := k.queues l
  exact ⟨new ++ more, by rw [grown', grown, List.append_assoc]⟩

theorem State.Refills.of_evolves {bs : List Block} {s t : State} (e : s.Evolves bs t)
    (listed : bs ⊆ removalBlocks := by decide) (track : Block.track ∉ bs := by decide)
    (fire : Block.fire ∉ bs := by decide) : s.Refills t := by
  have same := e.frame.track track
  exact ⟨e.mono listed, by rw [same], by rw [same], e.frame.fire fire,
    fun l => ⟨[], by rw [State.queue, same, List.append_nil, State.queue]⟩⟩

theorem State.testRelease_refills (s : State) (l : Lane) : s.Refills (s.testRelease l) := by
  have work := (State.testRelease_evolves s l).mono (cs := removalBlocks)
  unfold State.testRelease at work ⊢
  split at work
  case isFalse can => rw [if_neg can]; exact .refl s
  case isTrue can =>
    rw [if_pos can]
    obtain ⟨-, transit, belt⟩ := s.track_release l
    refine ⟨work, transit, belt, (State.traceEntry_frame ..).fire, fun m => ?_⟩
    rw [State.queue_release]
    split
    case isTrue here => exact ⟨[s.newStrip l], by rw [here]⟩
    case isFalse => exact ⟨[], (List.append_nil _).symm⟩

theorem State.retest_refills (s : State) : s.Refills s.retest := by
  unfold State.retest
  split
  · have chosen : s.Refills { s with choices := s.choices + 1 } :=
      .of_evolves (bs := [.choices]) (State.Evolves.of_fields)
    exact (chosen.trans (State.testRelease_refills ..)).trans (State.testRelease_refills ..)
  · exact (State.testRelease_refills ..).trans (State.testRelease_refills ..)

theorem State.afterStripRemoval_refills (s : State) (r : StripRec) (cause : Cause) :
    (s.cancelEntries fun e => e.names r.number 0).Refills (s.afterStripRemoval r cause) :=
  (State.Refills.of_evolves (State.auditRemoval_evolves ..)).trans (State.retest_refills _)

theorem State.afterPieceRemoval_refills (s : State) (r : PieceRec) (cause : Cause) :
    (s.cancelEntries fun e => e.names r.number r.index).Refills (s.afterPieceRemoval r cause) := by
  have audited : ∀ u : State, u.Refills (u.auditRemoval r.traced r.index cause).retest := fun u =>
    (State.Refills.of_evolves (State.auditRemoval_evolves ..)).trans (State.retest_refills _)
  unfold State.afterPieceRemoval
  dsimp only
  split
  · exact audited _
  · split
    · exact audited _
    · exact (State.Refills.of_evolves (State.lower_evolves ..)).trans (audited _)

/-! ## One record, and one after another -/

/-- R21: records have left the transit list and the belt list, each with its schedule entries. -/
structure State.Removal (transit : List StripRec) (belt : List BeltRec) (gone : FireEntry → Prop) (s t : State) : Prop where
  evolves : s.Evolves removalBlocks t
  transit : t.track.transit = transit
  belt : t.track.belt = belt
  channels : t.fire.channels = s.fire.channels
  schedule : ∀ e, e ∈ t.fire.schedule ↔ e ∈ s.fire.schedule ∧ ¬ gone e
  queues : ∀ l, ∃ new, t.queue l = s.queue l ++ new

theorem State.Removal.trans {tr tr' : List StripRec} {b b' : List BeltRec} {gone gone' : FireEntry → Prop}
    {s t u : State} (h : s.Removal tr b gone t) (k : t.Removal tr' b' gone' u) :
    s.Removal tr' b' (fun e => gone e ∨ gone' e) u := by
  refine ⟨h.evolves.trans k.evolves, k.transit, k.belt, k.channels.trans h.channels, fun e => ?_, fun l => ?_⟩
  · rw [k.schedule, h.schedule, not_or, and_assoc]
  · obtain ⟨new, grown⟩ := h.queues l
    obtain ⟨more, grown'⟩ := k.queues l
    exact ⟨new ++ more, by rw [grown', grown, List.append_assoc]⟩

theorem State.Removal.congr {tr tr' : List StripRec} {b b' : List BeltRec} {gone gone' : FireEntry → Prop} {s t : State}
    (h : s.Removal tr b gone t) (transit : tr = tr') (belt : b = b') (same : ∀ e, gone e ↔ gone' e) :
    s.Removal tr' b' gone' t := by
  obtain rfl : gone = gone' := funext fun e => propext (same e)
  exact transit ▸ belt ▸ h

/-- A record has left its list, its entries are cancelled, and lanes may release. -/
theorem State.Removal.of_refills {transit : List StripRec} {belt : List BeltRec} {names : FireEntry → Bool} {s t : State}
    (h : (State.cancelEntries { s with track.transit := transit, track.belt := belt } names).Refills t) :
    s.Removal transit belt (fun e => names e = true) t := by
  have left : s.Evolves removalBlocks (State.cancelEntries { s with track.transit := transit, track.belt := belt } names) :=
    (State.Evolves.of_fields (bs := [.track])).comp (State.cancelEntries_evolves ..)
  refine ⟨left.trans h.evolves, h.transit, h.belt, (congrArg Fire.channels h.fire).trans rfl, fun e => ?_, h.queues⟩
  rw [h.fire]
  simp [State.cancelEntries]

/-- The piece index under which the schedule names a record of the belt list. -/
def BeltRec.place : BeltRec → Nat
  | .strip _ => 0
  | .piece r => r.index

theorem State.removeTransit_removal (s : State) (r : StripRec) (cause : Cause) : s.Removal (s.track.transit.erase r)
    s.track.belt (fun e => e.names r.number 0 = true) (s.removeTransit r cause) :=
  .of_refills (State.afterStripRemoval_refills { s with track.transit := s.track.transit.erase r } r cause)

theorem State.removeBelt_removal (s : State) (x : BeltRec) (cause : Cause) : s.Removal s.track.transit
    (s.track.belt.erase x) (fun e => e.names x.number x.place = true) (s.removeBelt x cause) := by
  cases x with
  | strip r => exact .of_refills (State.afterStripRemoval_refills { s with track.belt := s.track.belt.erase _ } r cause)
  | piece r => exact .of_refills (State.afterPieceRemoval_refills { s with track.belt := s.track.belt.erase _ } r cause)

theorem State.removeTransits_removal (rs : List StripRec) (s : State) : s.Removal (s.track.transit.diff rs) s.track.belt
    (fun e => ∃ r ∈ rs, e.names r.number 0 = true) (s.removeTransits rs) := by
  induction rs generalizing s with
  | nil => exact ⟨.refl _ _, rfl, rfl, rfl, fun e => by simp [State.removeTransits], fun _ => ⟨[], (List.append_nil _).symm⟩⟩
  | cons r rs ih =>
    have first := s.removeTransit_removal r .removed
    refine (first.trans (ih _)).congr (by rw [first.transit, List.diff_cons]) first.belt fun e => ?_
    simp

theorem State.removeBelts_removal (xs : List BeltRec) (s : State) : s.Removal s.track.transit (s.track.belt.diff xs)
    (fun e => ∃ x ∈ xs, e.names x.number x.place = true) (s.removeBelts xs) := by
  induction xs generalizing s with
  | nil => exact ⟨.refl _ _, rfl, rfl, rfl, fun e => by simp [State.removeBelts], fun _ => ⟨[], (List.append_nil _).symm⟩⟩
  | cons x xs ih =>
    have first := s.removeBelt_removal x .removed
    refine (first.trans (ih _)).congr first.transit (by rw [first.belt, List.diff_cons]) fun e => ?_
    simp

/-- Of a list without the members that pass a test, those that fail it are left, in their order. -/
theorem diff_filter {α : Type} [DecidableEq α] (test : α → Bool) (xs : List α) :
    xs.diff (xs.filter test) = xs.filter fun x => !test x := by
  induction xs with
  | nil => rfl
  | cons x xs ih =>
    by_cases pass : test x = true
    · rw [List.filter_cons_of_pos pass, List.filter_cons_of_neg (by simp [pass]), List.diff_cons, List.erase_cons_head, ih]
    · rw [List.filter_cons_of_neg pass, List.filter_cons_of_pos (by simpa using pass), ← ih]
      exact (List.cons_diff_of_not_mem (by simp [pass]) _)

/-! ## REMOVE_STRIP -/

theorem State.inLane_iff (s : State) (n : StripNum) : s.inLane n = true ↔ ∃ l, ∃ r ∈ s.queue l, r.number = n := by
  simp only [State.inLane, List.any_append, Bool.or_eq_true, List.any_eq_true, beq_iff_eq]
  constructor
  · rintro (held | held)
    · exact ⟨.a, held⟩
    · exact ⟨.b, held⟩
  · rintro ⟨l, held⟩
    cases l
    · exact .inl held
    · exact .inr held

/-- R23: every transit and belt-list record of a number. -/
theorem State.removeNumber_removal (s : State) (n : StripNum) : s.Removal
    (s.track.transit.filter fun r => decide (r.number ≠ n)) (s.track.belt.filter fun x => decide (x.number ≠ n))
    (fun e => (∃ r ∈ s.track.transit, r.number = n ∧ e.names r.number 0 = true) ∨
      ∃ x ∈ s.track.belt, x.number = n ∧ e.names x.number x.place = true) (s.removeNumber n) := by
  have first := State.removeTransits_removal (s.track.transit.filter fun r => r.number == n) s
  have next := State.removeBelts_removal (s.track.belt.filter fun x => x.number == n)
    (s.removeTransits (s.track.transit.filter fun r => r.number == n))
  have others : ∀ m : StripNum, (!(m == n)) = decide (m ≠ n) := fun m => by by_cases same : m = n <;> simp [same]
  refine (first.trans next).congr ?_ ?_ fun e => ?_
  · rw [first.transit, diff_filter]
    simp only [others]
  · rw [first.belt, diff_filter]
    simp only [others]
  · simp only [List.mem_filter, beq_iff_eq, and_assoc]

/-! ## REMOVE_SPAN -/

theorem State.spanned_eq {s : State} {start stop : Pos} {inside : BeltRec → Bool} (test : ∀ x, inside x = true ↔
    ∃ q, x.lead = some q ∧ (q - start).toNat ≤ (stop - start).toNat) :
    s.spanned start stop = s.track.belt.filter inside := by
  refine List.filter_congr fun x _ => Bool.eq_iff_iff.mpr ?_
  rw [test, Option.any_eq_true]
  simp only [inSpan, decide_eq_true_eq]

theorem setResult_removed {tr : List StripRec} {b : List BeltRec} {gone : FireEntry → Prop} {s t : State}
    (h : s.Removal tr b gone t) (p : PortId) : s.unchangedBut removalBlocks (t.setResult p .ok) ∧
      ((t.setResult p .ok).port p).result = .ok ∧ t.track.transit = tr ∧ t.track.belt = b ∧
      (∀ l, ∃ new, t.queue l = s.queue l ++ new) ∧ (∀ e, e ∈ t.fire.schedule ↔ e ∈ s.fire.schedule ∧ ¬ gone e) ∧
      (t.track.position = s.track.position ∧ t.track.backlash = s.track.backlash ∧ t.track.marks = s.track.marks ∧
        t.fire.channels = s.fire.channels) :=
  ⟨h.evolves.frame.trans (State.setResult_unchangedBut ..).mono, by rw [State.port_setResult, if_pos rfl], h.transit,
    h.belt, h.queues, h.schedule, h.evolves.position, h.evolves.backlash, h.evolves.marks, h.channels⟩

/-- Settles O22: each refusal by its test, and the removals record by record. -/
theorem stripsAndSpansAreRemoved : Obligations.StripsAndSpansAreRemoved := by
  refine ⟨fun p s hi lo ready stopped => ?strip, fun p s f2 f1 f0 t2 t1 t0 ready stopped inside test => ?span⟩
  case strip =>
    have running : ¬ s.beltRun = true := by simp [stopped]
    have rule : ∀ {t r}, removeStrip (num16 hi lo) s = (t, r) →
        exec (.removeStrip p (.ends [hi, lo])) s = .next (t.setResult p r) := fun taken => exec_taken ready rfl rfl taken
    refine ⟨fun zero => rule ?_, fun isNumber held => rule ?_, fun isNumber absent => ?_, fun isNumber free carried => ?_⟩
    · rw [removeStrip, if_neg running, if_pos zero]
    · rw [removeStrip, if_neg running, if_neg isNumber, if_pos ((s.inLane_iff _).mpr held)]
    · have free : ¬ s.inLane (num16 hi lo) = true := by
        rw [State.carried, Bool.or_eq_false_iff] at absent
        rw [State.inLane, List.any_append, ← List.any_append]
        intro held
        have listed : s.strips.any (fun r => r.number == num16 hi lo) = true := by
          rw [State.strips, List.append_assoc, List.any_append, held, Bool.true_or]
        rw [listed] at absent
        cases absent.1
      refine rule ?_
      rw [removeStrip, if_neg running, if_neg isNumber, if_neg free, absent]
      rfl
    · have notHeld : ¬ s.inLane (num16 hi lo) = true := fun held => by
        obtain ⟨l, r, inQueue, same⟩ := (s.inLane_iff _).mp held
        exact free l r inQueue same
      have taken : removeStrip (num16 hi lo) s = (s.removeNumber (num16 hi lo), .ok) := by
        rw [removeStrip, if_neg running, if_neg isNumber, if_neg notHeld, if_pos carried]
      obtain ⟨frame, result, transit, belt, queues, schedule, rest⟩ := setResult_removed (s.removeNumber_removal (num16 hi lo)) p
      refine ⟨_, rule taken, frame, result, transit, belt, queues, fun e => ?_, rest⟩
      rw [State.setResult_fire, schedule, not_or]
      exact and_congr_right fun _ => and_congr_right fun _ => not_congr (exists_congr fun x => by cases x <;> rfl)
  case span =>
    have running : ¬ s.beltRun = true := by simp [stopped]
    have records := State.spanned_eq (s := s) test
    have rule : ∀ {t r}, removeSpan (pos24 f2 f1 f0) (pos24 t2 t1 t0) s = (t, r) →
        exec (.removeSpan p (.ends [f2, f1, f0, t2, t1, t0])) s = .next (t.setResult p r) :=
      fun taken => exec_taken ready rfl rfl taken
    refine ⟨fun none => rule ?_, fun ⟨x, listed, isInside⟩ => ?_⟩
    · rw [removeSpan, if_neg running, records, if_pos (List.filter_eq_nil_iff.mpr fun x listed => by simp [none x listed])]
    · have some_ : s.track.belt.filter inside ≠ [] := fun empty => by
        have := List.filter_eq_nil_iff.mp empty x listed
        exact this isInside
      have taken : removeSpan (pos24 f2 f1 f0) (pos24 t2 t1 t0) s = (s.removeBelts (s.track.belt.filter inside), .ok) := by
        rw [removeSpan, if_neg running, records, if_neg some_]
      obtain ⟨frame, result, transit, belt, queues, schedule, rest⟩ :=
        setResult_removed (State.removeBelts_removal (s.track.belt.filter inside) s) p
      refine ⟨_, rule taken, frame, result, transit, belt.trans (diff_filter ..), queues, fun e => ?_, rest⟩
      rw [State.setResult_fire, schedule]
      simp only [List.mem_filter, and_assoc]
      exact and_congr_right fun _ => not_congr (exists_congr fun x => by cases x <;> rfl)

end Sys2Proof.Machine

/-! The lanes: what entering a state, a release and a drain make of a lane, and REMOVE_LANE. -/

namespace Sys2Proof.Machine

/-! ## A lane through its own operations -/

theorem State.lane_raise (s : State) (l : Lane) (e : EventKind) (d : Nat) (n : StripNum) (k x : Nat) :
    (s.raise e d n k x).lane l = s.lane l := rfl

theorem State.queue_raise (s : State) (l : Lane) (e : EventKind) (d : Nat) (n : StripNum) (k x : Nat) :
    (s.raise e d n k x).queue l = s.queue l := rfl

theorem State.lane_enterLane (s : State) (l m : Lane) (st : LaneState) : (s.enterLane l st).lane m =
    if m = l then { s.lane l with state := st, delay := none, idle := none } else s.lane m := by
  rw [State.enterLane, State.lane_raise, State.lane_modLane]

/-- R36, R39: a lane that is not in RUN neither releases nor starts its idle timer. -/
theorem State.canRelease_eq_false {s : State} {l : Lane} (other : (s.lane l).state ≠ .run) : s.canRelease l = false :=
  Bool.eq_false_iff.mpr fun can => other (State.canRelease_wants can).1

theorem State.testRelease_idle {s : State} {l : Lane} (other : (s.lane l).state ≠ .run) : s.testRelease l = s := by
  rw [State.testRelease, State.canRelease_eq_false other]
  rfl

theorem State.startIdle_other {s : State} {l : Lane} (other : (s.lane l).state ≠ .run) : s.startIdle l = s :=
  if_neg fun idle => other (State.isIdle_run idle).1

/-- A lane as it stands is the same in two states: its queue and its controller. -/
def State.sameLane (s t : State) (l : Lane) : Prop := t.queue l = s.queue l ∧ t.lane l = s.lane l

theorem State.sameLane.trans {s t u : State} {l : Lane} (h : s.sameLane t l) (k : t.sameLane u l) : s.sameLane u l :=
  ⟨k.1.trans h.1, k.2.trans h.2⟩

theorem State.sameLane_of_frame {bs : List Block} {s t : State} (h : s.unchangedBut bs t) (l : Lane)
    (track : Block.track ∉ bs := by decide) (lanes : Block.lanes ∉ bs := by decide) : s.sameLane t l := by
  unfold State.sameLane State.queue State.lane
  rw [h.track track, h.lanes lanes]
  exact ⟨rfl, rfl⟩

theorem State.testRelease_sameLane {s : State} {l : Lane} (other : (s.lane l).state ≠ .run) (m : Lane) :
    s.sameLane (s.testRelease m) l := by
  by_cases here : l = m
  · subst here
    rw [State.testRelease_idle other]
    exact ⟨rfl, rfl⟩
  · unfold State.testRelease
    split
    · exact ⟨by rw [State.queue_release, if_neg here], by rw [State.lane_release, if_neg here]⟩
    · exact ⟨rfl, rfl⟩

/-- R12, R37: a change of the counts leaves a lane that is not in RUN as it stands. -/
theorem State.retest_sameLane {s : State} {l : Lane} (other : (s.lane l).state ≠ .run) : s.sameLane s.retest l := by
  have both : ∀ (u : State) (m n : Lane), (u.lane l).state ≠ .run → u.sameLane ((u.testRelease m).testRelease n) l := by
    intro u m n other
    have first := State.testRelease_sameLane other m
    exact first.trans (State.testRelease_sameLane (by rw [first.2]; exact other) n)
  unfold State.retest
  split
  · exact both { s with choices := s.choices + 1 } _ _ other
  · exact both s _ _ other

theorem State.afterStripRemoval_sameLane {s : State} {l : Lane} (other : (s.lane l).state ≠ .run) (r : StripRec)
    (cause : Cause) : s.sameLane (s.afterStripRemoval r cause) l := by
  have cancelled := State.sameLane_of_frame (State.cancelEntries_evolves s fun e => e.names r.number 0).frame l
  have audited := cancelled.trans (State.sameLane_of_frame (State.auditRemoval_evolves _ r.traced 0 cause).frame l)
  exact audited.trans (State.retest_sameLane (by rw [audited.2]; exact other))

/-! ## A queue shortened -/

theorem State.queueShortened_other {s : State} {l : Lane} (other : (s.lane l).state ≠ .run)
    (goesOn : ¬ ((s.lane l).state = .drain ∧ s.queue l = [])) : s.queueShortened l = s := by
  rw [State.queueShortened, if_neg goesOn, State.testRelease_idle other, State.startIdle_other other]

theorem State.queueShortened_drained {s : State} {l : Lane} (drain : (s.lane l).state = .drain) (empty : s.queue l = []) :
    s.queueShortened l = s.completeDrain l := if_pos ⟨drain, empty⟩

/-- R48: a lane whose drain towards OFF completes. -/
theorem State.completeDrain_off {s : State} {l : Lane} (target : (s.lane l).target = .off) :
    (s.completeDrain l).queue l = s.queue l ∧ (s.completeDrain l).lane l =
      { s.lane l with state := .off, target := .noTarget, delay := none, idle := none } := by
  rw [State.completeDrain, target]
  refine ⟨rfl, ?_⟩
  dsimp only
  rw [State.lane_enterLane, if_pos rfl, State.lane_modLane, if_pos rfl]

section
variable {s : State} {l : Lane} {r : Recipe} (target : (s.lane l).target = .recipe) (pending : (s.lane l).pending = some r)
include target pending

/-- R48: a lane whose drain towards a recipe completes, with another tool set. -/
theorem State.completeDrain_toolChange (differs : r.toolSet ≠ (s.lane l).current.toolSet) :
    (s.completeDrain l).queue l = s.queue l ∧ (s.completeDrain l).lane l = { s.lane l with
      state := .toolChange, target := .noTarget, current := r, pending := none, delay := none, idle := none } := by
  rw [State.completeDrain, target, pending]
  dsimp only [Option.getD_some]
  rw [if_neg differs]
  refine ⟨rfl, ?_⟩
  rw [State.lane_raise, State.lane_enterLane, if_pos rfl, State.lane_modLane, if_pos rfl]

/-- R48: a lane whose drain towards a recipe completes, with the same tool set and a delay. -/
theorem State.completeDrain_resuming (same : r.toolSet = (s.lane l).current.toolSet)
    (delayed : (s.lane l).limits.resumeDelay ≠ 0) :
    (s.completeDrain l).queue l = s.queue l ∧ (s.completeDrain l).lane l = { s.lane l with
      state := .resuming, target := .noTarget, current := r, pending := none
      delay := some (s.lane l).limits.resumeDelay, idle := none } := by
  rw [State.completeDrain, target, pending]
  dsimp only [Option.getD_some]
  rw [if_pos same, State.enterDelayed, if_neg delayed]
  refine ⟨rfl, ?_⟩
  rw [State.lane_modLane, if_pos rfl, State.lane_enterLane, if_pos rfl, State.lane_modLane, if_pos rfl]

end

theorem State.enterRun_refills (s : State) (l : Lane) : s.Refills (s.enterRun l) :=
  ((State.Refills.of_evolves (State.enterLane_evolves s l .run)).trans (State.testRelease_refills ..)).trans
    (.of_evolves (State.startIdle_evolves ..))

theorem State.enterDelayed_refills (s : State) (l : Lane) (st : LaneState) (d : Nat) : s.Refills (s.enterDelayed l st d) := by
  have entered : s.Refills (s.enterLane l st) := .of_evolves (State.enterLane_evolves ..)
  unfold State.enterDelayed
  dsimp only
  split
  · exact entered.trans (State.enterRun_refills ..)
  · exact entered.trans (.of_evolves (State.modLane_evolves ..))

theorem State.completeDrain_refills (s : State) (l : Lane) : s.Refills (s.completeDrain l) := by
  have changed : ∀ f, s.Refills (s.modLane l f) := fun f => .of_evolves (State.modLane_evolves ..)
  have entered : ∀ (u : State) st, u.Refills (u.enterLane l st) := fun u st => .of_evolves (State.enterLane_evolves ..)
  unfold State.completeDrain
  split
  · exact .refl s
  · exact (changed _).trans (entered _ _)
  · dsimp only
    split
    · exact (changed _).trans (State.enterDelayed_refills ..)
    · exact ((changed _).trans (entered _ _)).trans (.of_evolves (State.raise_evolves ..))

theorem State.queueShortened_refills (s : State) (l : Lane) : s.Refills (s.queueShortened l) := by
  unfold State.queueShortened
  split
  · exact State.completeDrain_refills ..
  · exact (State.testRelease_refills ..).trans (.of_evolves (State.startIdle_evolves ..))

/-! ## The front record removed -/

/-- R25, R55: the front record has left the queue, and with it its merge request. -/
def State.frontLeft (s : State) (l : Lane) (r : StripRec) (rest : List StripRec) : State :=
  if r.state = .atExit then (s.setQueue l rest).setPassedOver l false else s.setQueue l rest

theorem State.removeFront_cons {s : State} {l : Lane} {r : StripRec} {rest : List StripRec}
    (front : s.queue l = r :: rest) : s.removeFront l =
      ((s.frontLeft l r rest).queueShortened l).afterStripRemoval r .laneCleared := by
  rw [State.removeFront, front]
  rfl

theorem State.frontLeft_queue (s : State) (l m : Lane) (r : StripRec) (rest : List StripRec) :
    (s.frontLeft l r rest).queue m = if m = l then rest else s.queue m := by
  unfold State.frontLeft
  split <;> exact State.queue_setQueue ..

theorem State.frontLeft_lane (s : State) (l m : Lane) (r : StripRec) (rest : List StripRec) :
    (s.frontLeft l r rest).lane m = s.lane m := by
  unfold State.frontLeft
  split <;> rfl

theorem State.frontLeft_evolves (s : State) (l : Lane) (r : StripRec) (rest : List StripRec) :
    s.Evolves [.track, .merge] (s.frontLeft l r rest) := by
  unfold State.frontLeft
  split
  · exact (State.setQueue_evolves ..).comp (State.setPassedOver_evolves ..)
  · exact (State.setQueue_evolves ..).mono

theorem State.frontLeft_lists (s : State) (l : Lane) (r : StripRec) (rest : List StripRec) :
    (s.frontLeft l r rest).track.transit = s.track.transit ∧ (s.frontLeft l r rest).track.belt = s.track.belt := by
  unfold State.frontLeft
  split <;> exact ⟨rfl, rfl⟩

theorem State.frontLeft_passedOver {s : State} {l : Lane} {r : StripRec} (rest : List StripRec)
    (clear : r.state = .atExit ∨ s.passedOver l = false) : (s.frontLeft l r rest).passedOver l = false := by
  unfold State.frontLeft
  split
  case isTrue => rw [State.passedOver_setPassedOver, if_pos rfl]
  case isFalse other => exact clear.resolve_left other

/-- What the removal of records from a lane's queue leaves of everything beside that lane. -/
structure State.LaneCleared (l : Lane) (s t : State) : Prop where
  evolves : s.Evolves removalBlocks t
  transit : t.track.transit = s.track.transit
  belt : t.track.belt = s.track.belt
  others : ∃ new, t.queue (otherLane l) = s.queue (otherLane l) ++ new
  passedOver : s.passedOver l = false → t.passedOver l = false

theorem State.LaneCleared.refl (l : Lane) (s : State) : State.LaneCleared l s s :=
  ⟨.refl _ _, rfl, rfl, ⟨[], (List.append_nil _).symm⟩, id⟩

theorem State.LaneCleared.trans {l : Lane} {s t u : State} (h : State.LaneCleared l s t) (k : State.LaneCleared l t u) :
    State.LaneCleared l s u := by
  obtain ⟨new, grown⟩ := h.others
  obtain ⟨more, grown'⟩ := k.others
  exact ⟨h.evolves.trans k.evolves, k.transit.trans h.transit, k.belt.trans h.belt,
    ⟨new ++ more, by rw [grown', grown, List.append_assoc]⟩, fun clear => k.passedOver (h.passedOver clear)⟩

theorem otherLane_ne (l : Lane) : otherLane l ≠ l := by cases l <;> decide

/-- What follows the record's leaving the queue: the lane sees it shortened, and the counts have changed. -/
theorem State.afterFront_refills (s : State) (l : Lane) (r : StripRec) : ∃ u, s.Evolves removalBlocks u ∧
    u.track = (s.queueShortened l).track ∧ u.merge = s.merge ∧
    u.Refills ((s.queueShortened l).afterStripRemoval r .laneCleared) ∧
    ((s.queueShortened l).afterStripRemoval r .laneCleared).merge = s.merge := by
  have shortened := State.queueShortened_evolves s l
  have cancelled := State.cancelEntries_evolves (s.queueShortened l) fun e => e.names r.number 0
  refine ⟨_, shortened.comp cancelled, cancelled.frame.track, cancelled.frame.merge.trans shortened.frame.merge,
    State.afterStripRemoval_refills .., ?_⟩
  exact (State.afterStripRemoval_evolves ..).frame.merge.trans shortened.frame.merge

theorem State.removeFront_passedOver {s : State} {l : Lane} {r : StripRec} {rest : List StripRec}
    (front : s.queue l = r :: rest) (clear : r.state = .atExit ∨ s.passedOver l = false) :
    (s.removeFront l).passedOver l = false := by
  obtain ⟨u, -, -, -, -, merge⟩ := (s.frontLeft l r rest).afterFront_refills l r
  rw [State.removeFront_cons front, State.passedOver, merge]
  exact State.frontLeft_passedOver rest clear

theorem State.removeFront_cleared (s : State) (l : Lane) : State.LaneCleared l s (s.removeFront l) := by
  cases front : s.queue l with
  | nil =>
    have none : s.removeFront l = s := by rw [State.removeFront, front]
    exact none.symm ▸ .refl l s
  | cons r rest =>
    have left := s.frontLeft_evolves l r rest
    obtain ⟨transit, belt⟩ := s.frontLeft_lists l r rest
    have shortened := (s.frontLeft l r rest).queueShortened_refills l
    obtain ⟨u, work, track, -, refills, merge⟩ := (s.frontLeft l r rest).afterFront_refills l r
    have passed := State.removeFront_passedOver front
    rw [State.removeFront_cons front] at passed ⊢
    refine ⟨(left.mono.trans work).trans refills.evolves, ?_, ?_, ?_, fun clear => passed (.inr clear)⟩
    · rw [refills.transit, track, shortened.transit, transit]
    · rw [refills.belt, track, shortened.belt, belt]
    · obtain ⟨new, grown⟩ := shortened.queues (otherLane l)
      obtain ⟨more, grown'⟩ := refills.queues (otherLane l)
      have same : u.queue (otherLane l) = ((s.frontLeft l r rest).queueShortened l).queue (otherLane l) := by
        rw [State.queue, track, State.queue]
      exact ⟨new ++ more, by rw [grown', same, grown, State.frontLeft_queue, if_neg (otherLane_ne l), List.append_assoc]⟩

theorem State.removeFronts_cleared (l : Lane) (n : Nat) (s : State) : State.LaneCleared l s (State.removeFronts l n s) := by
  induction n generalizing s with
  | zero => exact .refl l s
  | succ n ih => exact (s.removeFront_cleared l).trans (ih _)

/-! ## What becomes of the lane itself -/

section
variable {s : State} {l : Lane} {r : StripRec} {rest : List StripRec} (front : s.queue l = r :: rest)
include front

/-- R41: a lane that neither runs nor completes its drain loses its front record and no more. -/
theorem State.removeFront_goesOn (other : (s.lane l).state ≠ .run) (goesOn : (s.lane l).state = .drain → rest ≠ []) :
    (s.removeFront l).queue l = rest ∧ (s.removeFront l).lane l = s.lane l := by
  have queue : (s.frontLeft l r rest).queue l = rest := by rw [State.frontLeft_queue, if_pos rfl]
  have lane := s.frontLeft_lane l l r rest
  rw [State.removeFront_cons front, State.queueShortened_other (by rw [lane]; exact other)
    (by rw [lane, queue]; exact fun done => goesOn done.1 done.2)]
  obtain ⟨keptQueue, keptLane⟩ := State.afterStripRemoval_sameLane (s := s.frontLeft l r rest) (by rw [lane]; exact other)
    r .laneCleared
  exact ⟨keptQueue.trans queue, keptLane.trans lane⟩

/-- R48: a lane in DRAIN that loses its last record completes its drain. -/
theorem State.removeFront_drained {c : LaneCtl} (drain : (s.lane l).state = .drain) (last : rest = [])
    (completes : ∀ u : State, u.lane l = s.lane l → (u.completeDrain l).queue l = u.queue l ∧ (u.completeDrain l).lane l = c)
    (halted : c.state ≠ .run) : (s.removeFront l).queue l = [] ∧ (s.removeFront l).lane l = c := by
  have queue : (s.frontLeft l r rest).queue l = [] := by rw [State.frontLeft_queue, if_pos rfl, last]
  have lane := s.frontLeft_lane l l r rest
  obtain ⟨emptied, stands⟩ := completes _ lane
  rw [State.removeFront_cons front, State.queueShortened_drained (by rw [lane]; exact drain) queue]
  obtain ⟨keptQueue, keptLane⟩ := State.afterStripRemoval_sameLane (by rw [stands]; exact halted) r .laneCleared
  exact ⟨keptQueue.trans (emptied.trans queue), keptLane.trans stands⟩

end

theorem State.removeFronts_halted {l : Lane} (n : Nat) {s : State} (length : (s.queue l).length = n)
    (other : (s.lane l).state ≠ .run) (noDrain : (s.lane l).state ≠ .drain) :
    (State.removeFronts l n s).queue l = [] ∧ (State.removeFronts l n s).lane l = s.lane l := by
  induction n generalizing s with
  | zero => exact ⟨List.eq_nil_of_length_eq_zero length, rfl⟩
  | succ n ih =>
    obtain ⟨r, rest, front⟩ := List.exists_cons_of_length_eq_add_one length
    obtain ⟨queue, lane⟩ := State.removeFront_goesOn front other (absurd · noDrain)
    obtain ⟨emptied, kept⟩ := ih (s := s.removeFront l) (by rw [queue]; simpa [front] using length)
      (by rw [lane]; exact other) (by rw [lane]; exact noDrain)
    exact ⟨emptied, kept.trans lane⟩

/-- A lane in DRAIN stays as it is until its last record. -/
theorem State.removeFronts_drain {l : Lane} (n : Nat) {s : State} (length : (s.queue l).length = n + 1)
    (drain : (s.lane l).state = .drain) : ∃ (u : State) (r : StripRec), u.queue l = [r] ∧ u.lane l = s.lane l ∧
      State.removeFronts l (n + 1) s = u.removeFront l := by
  induction n generalizing s with
  | zero =>
    obtain ⟨r, front⟩ := List.length_eq_one_iff.mp length
    exact ⟨s, r, front, rfl, rfl⟩
  | succ n ih =>
    obtain ⟨r, rest, front⟩ := List.exists_cons_of_length_eq_add_one length
    have more : rest.length = n + 1 := by simpa [front] using length
    obtain ⟨queue, lane⟩ := State.removeFront_goesOn front (by rw [drain]; decide) fun _ empty => by simp [empty] at more
    obtain ⟨u, x, one, same, last⟩ := ih (s := s.removeFront l) (by rw [queue, more]) (by rw [lane, drain])
    exact ⟨u, x, one, same.trans lane, last⟩

/-- R25, R48: a lane in DRAIN of which every record is removed completes its drain. -/
theorem State.removeFronts_drained {l : Lane} {s : State} {c : LaneCtl} (some_ : s.queue l ≠ [])
    (drain : (s.lane l).state = .drain)
    (completes : ∀ u : State, u.lane l = s.lane l → (u.completeDrain l).queue l = u.queue l ∧ (u.completeDrain l).lane l = c)
    (halted : c.state ≠ .run) : (State.removeFronts l (s.queue l).length s).queue l = [] ∧
      (State.removeFronts l (s.queue l).length s).lane l = c := by
  obtain ⟨n, length⟩ := Nat.exists_eq_succ_of_ne_zero (mt List.eq_nil_of_length_eq_zero some_)
  obtain ⟨u, r, one, same, last⟩ := State.removeFronts_drain n length drain
  rw [length, last]
  exact State.removeFront_drained one (by rw [same, drain]) rfl (fun v lane => completes v (lane.trans same)) halted

/-! ## REMOVE_LANE -/

theorem takeLane_none {b : Byte} (h : 2 ≤ b.toNat) (f : Lane → State → State × Result) (s : State) :
    takeLane f [b] s = (s, .badField) := by
  rw [takeLane, laneOfCode_eq_none h]

theorem removeLane_taken {s : State} {l : Lane} (stopped : s.beltRun = false) (may : (s.lane l).state.mayRemove = true) :
    removeLane l s = (State.removeFronts l (s.queue l).length s, .ok) := by
  rw [removeLane, stopped, may]
  rfl

theorem removeLane_state {s : State} {l : Lane} (stopped : s.beltRun = false) (barred : (s.lane l).state.mayRemove = false) :
    removeLane l s = (s, .state) := by
  rw [removeLane, stopped, barred]
  rfl

theorem State.removeFronts_passedOver {s : State} {l : Lane} (atExit : s.frontAtExit l = true) :
    (State.removeFronts l (s.queue l).length s).passedOver l = false := by
  unfold State.frontAtExit at atExit
  cases front : s.queue l with
  | nil => rw [front] at atExit; cases atExit
  | cons r rest =>
    rw [front] at atExit
    have here : r.state = .atExit := by simpa using atExit
    exact (State.removeFronts_cleared l rest.length _).passedOver (State.removeFront_passedOver front (.inl here))

/-- Settles O23: the records one by one, and the lane by its state and its drain's target. -/
theorem lanesAreRemoved : Obligations.LanesAreRemoved := by
  intro p s ready
  have rule : ∀ {l t r}, removeLane l s = (t, r) →
      exec (.removeLane p (.ends [BitVec.ofNat 8 (laneCode l)])) s = .next (t.setResult p r) := fun {l t r} taken =>
    exec_taken (c := .removeLane) ready rfl rfl ((takeLane_code removeLane l s).trans taken)
  refine ⟨fun b above => exec_taken ready rfl rfl (takeLane_none above removeLane s), fun l stopped =>
    ⟨fun barred => rule (removeLane_state stopped ?_), fun empty may => rule ?_, fun some_ may => ?_⟩⟩
  · rcases barred with st | st | st | st <;> rw [st] <;> rfl
  · rw [removeLane_taken stopped may, empty]
    rfl
  · have cleared := State.removeFronts_cleared l (s.queue l).length s
    refine ⟨_, rule (removeLane_taken stopped may), cleared.evolves.frame.trans (State.setResult_unchangedBut ..).mono,
      by rw [State.port_setResult, if_pos rfl], ⟨cleared.transit, cleared.belt⟩, cleared.others,
      State.removeFronts_passedOver, fun noDrain => ?_, fun drain target => ?_, fun drain target r pending differs => ?_,
      fun drain target r pending same delayed => ?_⟩
    · exact State.removeFronts_halted _ rfl (fun run => by rw [run] at may; cases may) noDrain
    · refine State.removeFronts_drained some_ drain (fun u lane => ?_) nofun
      exact lane ▸ State.completeDrain_off (lane ▸ target)
    · refine State.removeFronts_drained some_ drain (fun u lane => ?_) nofun
      exact lane ▸ State.completeDrain_toolChange (lane ▸ target) (lane ▸ pending) (lane ▸ differs)
    · refine State.removeFronts_drained some_ drain (fun u lane => ?_) nofun
      exact lane ▸ State.completeDrain_resuming (lane ▸ target) (lane ▸ pending) (lane ▸ same) (lane ▸ delayed)

end Sys2Proof.Machine

/-! LINE_CLEAR: the blocks emptied, and the bins reopened or settled over empty lists. -/

namespace Sys2Proof.Machine

/-! ## The bin controller over empty lists -/

/-- R166: every order bin's list is empty, and so is the reject bin's, which has dropped d pieces. -/
def State.listsEmpty (d : Nat) (s : State) : Prop := (∀ b, (s.bin b).expected = []) ∧ s.bnc.reject = ⟨d, []⟩

section
variable {d : Nat} {s : State} (h : s.listsEmpty d)
include h

/-- The lists stand in the bins alone. -/
theorem State.listsEmpty_congr {t : State} (bins : t.bnc.bins = s.bnc.bins := by rfl)
    (reject : t.bnc.reject = s.bnc.reject := by rfl) : t.listsEmpty d := by
  obtain ⟨empty, dropped⟩ := h
  exact ⟨fun b => by rw [State.bin, bins]; exact empty b, reject.trans dropped⟩

theorem State.listsEmpty_modBin (b : BinId) {f : OrderBin → OrderBin} (keeps : ∀ x, x.expected = [] → (f x).expected = []) :
    (s.modBin b f).listsEmpty d := by
  obtain ⟨bins, reject⟩ := h
  refine ⟨fun c => ?_, reject⟩
  rw [State.bin_modBin]
  split
  · exact keeps _ (bins b)
  · exact bins c

theorem State.listsEmpty_enterBin (b : BinId) (st : BinState) : (s.enterBin b st).listsEmpty d :=
  State.listsEmpty_congr (State.listsEmpty_modBin h b (f := fun x => { x with state := st }) fun _ empty => empty)

theorem State.listsEmpty_bindBin (b : BinId) (o : Order) : (s.bindBin b o).listsEmpty d := by
  have bound : ((s.modBin b fun _ => { OrderBin.powerOn with order := some o.id }).enterBin b .opened).listsEmpty d :=
    State.listsEmpty_enterBin (State.listsEmpty_modBin h b fun _ _ => rfl) b .opened
  unfold State.bindBin
  dsimp only
  split
  · exact State.listsEmpty_congr bound
  · exact State.listsEmpty_congr bound

theorem State.listsEmpty_bindWhile (fuel : Nat) : (s.bindWhile fuel).listsEmpty d := by
  induction fuel generalizing s with
  | zero => exact h
  | succ fuel ih =>
    unfold State.bindWhile
    split
    · exact ih (State.listsEmpty_bindBin h ..)
    · exact h
    · exact h

theorem State.listsEmpty_modOrder (i : OrderId) (f : Order → Order) : (s.modOrder i f).listsEmpty d :=
  State.listsEmpty_congr h

theorem State.listsEmpty_enterOrder (i : OrderId) (st : OrderState) : (s.enterOrder i st).listsEmpty d :=
  State.listsEmpty_congr h

theorem State.listsEmpty_unbind (b : BinId) (i : OrderId) : (s.unbind b i).listsEmpty d := by
  have left := State.listsEmpty_modOrder h i fun o => { o with bins := o.bins.erase b }
  unfold State.unbind
  dsimp only
  split
  · exact left
  · split
    · exact left
    · split
      · exact State.listsEmpty_enterOrder left ..
      · exact State.listsEmpty_enterOrder left ..
      · exact State.listsEmpty_enterOrder left ..
      all_goals exact left

theorem State.listsEmpty_giveBack (b : BinId) (wasOpen : Nat) : (s.giveBack b wasOpen).listsEmpty d := by
  have freed : ((s.modBin b fun _ => OrderBin.powerOn).enterBin b .free).listsEmpty d :=
    State.listsEmpty_enterBin (State.listsEmpty_modBin h b fun _ _ => rfl) b .free
  unfold State.giveBack
  dsimp only
  split
  · exact State.listsEmpty_bindWhile freed 10
  · exact State.listsEmpty_bindWhile (State.listsEmpty_unbind (State.listsEmpty_modOrder freed ..) b _) 10

theorem State.listsEmpty_composeLabel (b : BinId) (rest : List BinId) : (s.composeLabel b rest).listsEmpty d := by
  have labelled : ((s.labelWritten b rest).enterBin b .labelled).listsEmpty d :=
    State.listsEmpty_enterBin (State.listsEmpty_congr h) b .labelled
  unfold State.composeLabel
  dsimp only
  split
  · exact State.listsEmpty_congr labelled
  · exact State.listsEmpty_congr labelled

theorem State.listsEmpty_composeWhile (fuel : Nat) : (s.composeWhile fuel).listsEmpty d := by
  induction fuel generalizing s with
  | zero => exact h
  | succ fuel ih =>
    unfold State.composeWhile
    split
    · exact h
    · split
      · exact ih (State.listsEmpty_composeLabel h ..)
      · exact h

theorem State.listsEmpty_enterLabelWait (b : BinId) (isPartial : Bool) : (s.enterLabelWait b isPartial).listsEmpty d := by
  have waiting : ((s.modBin b fun x => { x with isPartial := isPartial }).enterBin b .labelWait).listsEmpty d :=
    State.listsEmpty_enterBin (State.listsEmpty_modBin h b (f := fun x => { x with isPartial := isPartial })
      fun _ empty => empty) b .labelWait
  unfold State.enterLabelWait
  exact State.listsEmpty_composeWhile (State.listsEmpty_congr waiting) 2

theorem State.listsEmpty_settleBin (b : BinId) : (s.settleBin b).listsEmpty d := by
  unfold State.settleBin
  split
  · split
    · exact State.listsEmpty_giveBack h b 1
    · exact State.listsEmpty_enterLabelWait h b true
  · exact h

theorem State.listsEmpty_reopenBin (b : BinId) : (s.reopenBin b).listsEmpty d := by
  unfold State.reopenBin
  split
  · split
    · exact State.listsEmpty_settleBin (State.listsEmpty_enterBin h b .draining) b
    · exact State.listsEmpty_enterBin h b .opened
  · exact State.listsEmpty_settleBin h b
  all_goals exact h

theorem State.listsEmpty_reopen (bs : List BinId) : (bs.foldl State.reopenBin s).listsEmpty d := by
  induction bs generalizing s with
  | nil => exact h
  | cons b bs ih => exact ih (State.listsEmpty_reopenBin h b)

end

theorem State.expected_of_listsEmpty {d : Nat} {s : State} (h : s.listsEmpty d) (b : GateId) : s.expected b = [] := by
  obtain ⟨bins, reject⟩ := h
  unfold State.expected
  split
  · exact bins _
  · rw [reject]

/-! ## A bin reopened -/

theorem State.reopenBin_eq (s : State) (b : BinId) : s.reopenBin b =
    if (s.bin b).state = .closing then
      (if (s.boundOrder b).any (fun o => decide (o.state = .cancelling)) then s.drainBin b
      else (s.modBin b fun x => { x with state := .opened }).raise .binState 1 0 0 b.val)
    else if (s.bin b).state = .draining ∧ (s.bin b).expected = [] then
      (if (s.bin b).dropped = 0 then s.giveBack b 1 else s.enterLabelWait b true)
    else s := by
  unfold State.reopenBin
  cases stands : (s.bin b).state with
  | closing => rfl
  | draining =>
    dsimp only
    rw [State.settleBin, stands]
    rfl
  | free | opened | labelWait | labelled | outOfService => simp

theorem State.reopenBin_other {s : State} {b : BinId} (closing : (s.bin b).state ≠ .closing)
    (draining : (s.bin b).state ≠ .draining) : s.reopenBin b = s := by
  rw [State.reopenBin_eq, if_neg closing, if_neg fun both => draining both.1]

theorem State.foldl_reopenBin_other {s : State} (other : ∀ b, (s.bin b).state ≠ .closing ∧ (s.bin b).state ≠ .draining)
    (bs : List BinId) : bs.foldl State.reopenBin s = s := by
  induction bs with
  | nil => rfl
  | cons b bs ih => rw [List.foldl_cons, State.reopenBin_other (other b).1 (other b).2, ih]

/-! ## The blocks emptied -/

theorem Gauge.cleared_eq (g : Gauge) :
    g.cleared = { g with untracked := if g.eye = .clear then g.untracked else true } := by
  unfold Gauge.cleared
  cases eye : g.eye <;> simp

theorem State.bin_emptied (s : State) (b : BinId) : s.emptied.bin b = (s.bin b).emptied := by
  simp [State.bin, State.emptied, Bins.emptied]

theorem State.emptied_listsEmpty (s : State) : s.emptied.listsEmpty s.bnc.reject.dropped :=
  ⟨fun b => by rw [State.bin_emptied]; rfl, rfl⟩

theorem LaneState.mayClear_iff (st : LaneState) : st.mayClear = true ↔ st = .off ∨ st = .hold := by
  cases st <;> decide

theorem lanes_mayClear_iff (s : State) : ((s.lane .a).state.mayClear && (s.lane .b).state.mayClear) = true ↔
    ∀ l, (s.lane l).state = .off ∨ (s.lane l).state = .hold := by
  rw [Bool.and_eq_true, LaneState.mayClear_iff, LaneState.mayClear_iff]
  exact ⟨fun both l => by cases l; exacts [both.1, both.2], fun all => ⟨all .a, all .b⟩⟩

theorem takeLineClear_taken {s : State} (stopped : s.beltRun = false)
    (still : ∀ l, (s.lane l).state = .off ∨ (s.lane l).state = .hold) (ps : List Byte) :
    takeLineClear ps s = (s.lineClear, .ok) := by
  rw [takeLineClear, stopped, (lanes_mayClear_iff s).mpr still]
  rfl

theorem takeLineClear_refused {s : State}
    (busy : s.beltRun = true ∨ ∃ l, (s.lane l).state ≠ .off ∧ (s.lane l).state ≠ .hold) (ps : List Byte) :
    takeLineClear ps s = (s, .state) := by
  rcases busy with running | ⟨l, notOff, notHold⟩
  · exact takeLineClear_running running ps
  · unfold takeLineClear
    split
    · rfl
    · exact if_neg fun may => ((lanes_mayClear_iff s).mp may l).elim notOff notHold

/-- R10: an empty track has 128 free records and no uncut strip. -/
theorem State.counts_of_emptied {s t : State}
    (track : t.track = { s.track with queues := ⟨[], []⟩, transit := [], belt := [] }) :
    t.freeRecords = 128 ∧ t.uncutStrips = 0 := by
  unfold State.freeRecords State.allocated State.uncutStrips State.strips State.beltStrips
  rw [track]
  exact ⟨rfl, rfl⟩

/-- Settles O24: the blocks emptied, the bins one after another over empty lists, and the one event. -/
theorem theLineIsCleared : Obligations.TheLineIsCleared := by
  intro p s ready
  refine ⟨fun busy => exec_taken ready rfl rfl (takeLineClear_refused busy []), fun stopped still bins cleared reopened
    binsEq clearedEq reopenedEq => ?_⟩
  obtain rfl : reopened = State.reopenBin := funext fun u => funext fun b => (reopenedEq u b).trans (u.reopenBin_eq b).symm
  have emptied : s.emptied = cleared := by
    rw [clearedEq, binsEq, State.emptied, Gauge.cleared_eq]
    rfl
  have empty : cleared.track = { s.track with queues := ⟨[], []⟩, transit := [], belt := [] } := by rw [clearedEq]
  have lists := s.emptied_listsEmpty
  have work := s.emptied_evolves
  rw [emptied] at lists work
  have bin := s.bin_emptied
  rw [emptied] at bin
  have reopening : cleared.Evolves binBlocks ((List.finRange 10).foldl State.reopenBin cleared) :=
    State.Evolves.foldl _ (fun u b => State.reopenBin_evolves u b) _ _
  have left := State.listsEmpty_reopen lists (List.finRange 10)
  have quiet : (∀ b, (s.bin b).state ≠ .closing ∧ (s.bin b).state ≠ .draining) →
      (List.finRange 10).foldl State.reopenBin cleared = cleared := fun other =>
    State.foldl_reopenBin_other (fun b => by rw [bin]; exact other b) _
  have done : s.lineClear = State.raise ((List.finRange 10).foldl State.reopenBin cleared) .lineCleared 0 0 0 s.allocated := by
    rw [State.lineClear, State.reopenAll, emptied]
  refine ⟨_, exec_taken ready rfl rfl (takeLineClear_taken stopped still []), by rw [done], ?_⟩
  rw [done]
  generalize (List.finRange 10).foldl State.reopenBin cleared = u at reopening left quiet
  have track : u.track = cleared.track := reopening.frame.track
  have frame : s.Evolves [.track, .merge, .gauge, .fire, .book, .bins, .audit, .ports] u := work.comp reopening
  have raised := (frame.trans (State.raise_evolves u .lineCleared 0 0 0 s.allocated).mono).frame
  refine ⟨raised.trans (State.setResult_unchangedBut ..).mono, by rw [State.port_setResult, if_pos rfl],
    State.counts_of_emptied (s := s) (track.trans empty),
    ⟨track, reopening.frame.merge, reopening.frame.gauge, reopening.frame.fire, reopening.frame.audit⟩,
    State.expected_of_listsEmpty (State.listsEmpty_congr left), (congrArg RejectBin.dropped left.2).trans rfl,
    reopening.runouts.trans work.runouts, fun other => ?_⟩
  rw [quiet other, clearedEq]
  exact ⟨rfl, rfl, rfl⟩

end Sys2Proof.Machine

/-! The lanes: what a release makes of the state, entries into a lane's states, drains, and the lane commands. -/

namespace Sys2Proof.Machine

/-! ## Changes of one lane -/

theorem State.modLane_congr {s : State} {l : Lane} {f g : LaneCtl → LaneCtl} (h : f (s.lane l) = g (s.lane l)) :
    s.modLane l f = s.modLane l g := congrArg (fun c => { s with lanes := s.lanes.set l c }) h

theorem PerLane.set_set {α : Type} (x : PerLane α) (l : Lane) (v w : α) : (x.set l v).set l w = x.set l w := by
  cases l <;> rfl

theorem State.modLane_modLane (s : State) (l : Lane) (f g : LaneCtl → LaneCtl) :
    (s.modLane l f).modLane l g = s.modLane l fun c => g (f c) := by
  cases l <;> rfl

/-! ## Releases -/

/-- R11, R36: the conditions of a release, the reserve as a difference. -/
theorem State.canRelease_iff (s : State) (l : Lane) : s.canRelease l = true ↔ (s.lane l).state = .run ∧
    (s.lane l).blankWaiting = true ∧ (s.queue l).length < (s.lane l).limits.capacity ∧ (s.lane l).releaseTimer = none ∧
    4 ≤ (s.freeRecords : Int) - 3 * s.uncutStrips := by
  have reserve : 3 * s.uncutStrips + 4 ≤ s.freeRecords ↔ 4 ≤ (s.freeRecords : Int) - 3 * s.uncutStrips := by omega
  simp only [State.canRelease, State.wantsRelease, State.reserveHolds, Bool.and_eq_true, beq_iff_eq, decide_eq_true_eq,
    Option.isNone_iff_eq_none, reserve, and_assoc]

theorem State.testRelease_can {s : State} {l : Lane} (can : s.canRelease l = true) : s.testRelease l = s.release l :=
  if_pos can

theorem State.testRelease_cannot {s : State} {l : Lane} (cannot : s.canRelease l = false) : s.testRelease l = s :=
  if_neg (Bool.eq_false_iff.mp cannot)

theorem Audit.nextIsSample_iff (a : Audit) : a.nextIsSample = true ↔ a.interval ≠ 0 ∧ a.interval ≤ a.counter + 1 := by
  rw [Audit.nextIsSample, Bool.and_eq_true, bne_iff_ne, decide_eq_true_iff]

theorem Audit.startsTrace_iff (a : Audit) : a.startsTrace = true ↔ a.nextIsSample = true ∧ a.trace = .none := by
  rw [Audit.startsTrace, Bool.and_eq_true, beq_iff_eq]

/-- R191: a release is counted unless the interval is 0. -/
theorem Audit.countRelease_eq (a : Audit) : a.countRelease = { a with
    counter := if a.interval = 0 then a.counter else if a.nextIsSample then 0 else a.counter + 1 } := by
  unfold Audit.countRelease
  split <;> rfl

/-- R191, R192: the audit unit after a release, and the first entry of the trace it starts. -/
theorem State.audit_release (s : State) (l : Lane) : (s.release l).audit =
    (if s.audit.startsTrace then { s.audit.countRelease with
      trace := .inProgress, strip := s.newNumber, lane := l, truncated := false
      entries := [⟨.released, 0, 0, s.track.position, s.time.ms⟩] }
    else s.audit.countRelease) := by
  unfold State.release State.traceEntry Audit.atRelease
  cases starts : s.audit.startsTrace <;> rfl

/-- R9, R36: the track after a release. -/
theorem State.track_release_eq (s : State) (l : Lane) : (s.release l).track = { s.track with
    lastNumber := s.newNumber, queues := s.track.queues.set l (s.queue l ++ [s.newStrip l]) } := by
  unfold State.release
  rw [(State.traceEntry_frame ..).track]
  rfl

theorem State.lanes_release_eq (s : State) (l : Lane) : (s.release l).lanes = s.lanes.set l (s.lane l).atRelease := by
  unfold State.release
  rw [(State.traceEntry_frame ..).lanes]
  rfl

/-- Settles O26: the release is the change of three blocks, each given by its own lemma, and the search for the new
number ends because a release finds four free records. -/
theorem blanksAreReleased : Obligations.BlanksAreReleased := by
  intro s l
  refine ⟨s.canRelease_iff l, State.testRelease_cannot, fun can => ⟨s.newNumber, ?_, fun sample sampled traced starts => ?_⟩⟩
  · have reserve := State.canRelease_reserve can
    unfold State.freeRecords at reserve
    obtain ⟨d, number, isNumber, fresh, first⟩ := s.newNumber_first (by omega)
    exact ⟨isNumber, fresh, d, number, first⟩
  · obtain rfl : s.audit.nextIsSample = sample := Bool.eq_iff_iff.mpr ((Audit.nextIsSample_iff _).trans sampled.symm)
    obtain rfl : s.audit.startsTrace = traced := Bool.eq_iff_iff.mpr ((Audit.startsTrace_iff _).trans starts.symm)
    rw [State.testRelease_can can]
    refine ⟨(State.release_evolves s l).frame, s.track_release_eq l, s.lanes_release_eq l, ?_⟩
    rw [s.audit_release, Audit.countRelease_eq]

/-! ## Entries into a lane's states -/

theorem State.isIdle_iff (s : State) (l : Lane) : s.isIdle l = true ↔ (s.lane l).state = .run ∧
    (s.lane l).blankReady = false ∧ s.queue l = [] ∧ (s.lane l).limits.idleTimeout ≠ 0 := by
  simp only [State.isIdle, Bool.and_eq_true, beq_iff_eq, Bool.not_eq_true', List.isEmpty_iff, bne_iff_ne, and_assoc]

theorem State.startIdle_idle {s : State} {l : Lane} (idle : s.isIdle l = true) : s.startIdle l =
    s.modLane l fun c => { c with idle := some (100 * (s.lane l).limits.idleTimeout) } :=
  (if_pos idle).trans (State.modLane_congr rfl)

theorem State.startIdle_busy {s : State} {l : Lane} (busy : ¬ s.isIdle l = true) : s.startIdle l = s := if_neg busy

/-- R39: a lane that has just released is not idle. -/
theorem State.startIdle_release (s : State) (l : Lane) : (s.release l).startIdle l = s.release l := by
  refine State.startIdle_busy fun idle => ?_
  have empty := (State.isIdle_run idle).2
  rw [State.queue_release, if_pos rfl] at empty
  exact List.append_ne_nil_of_right_ne_nil _ (List.cons_ne_nil _ _) empty

theorem State.enterRun_releases {s : State} {l : Lane} (can : (s.enterLane l .run).canRelease l = true) :
    s.enterRun l = (s.enterLane l .run).testRelease l := by
  rw [State.enterRun, State.testRelease_can can, State.startIdle_release]

/-- R39: a lane that has entered RUN is idle by its queue, its input and its timeout. -/
theorem State.isIdle_enterRun (s : State) (l : Lane) : (s.enterLane l .run).isIdle l = true ↔
    (s.lane l).blankReady = false ∧ s.queue l = [] ∧ (s.lane l).limits.idleTimeout ≠ 0 := by
  rw [State.isIdle_iff, State.lane_enterLane, if_pos rfl]
  exact and_iff_right rfl

theorem State.enterRun_idles {s : State} {l : Lane} (cannot : (s.enterLane l .run).canRelease l = false)
    (idle : (s.lane l).blankReady = false ∧ s.queue l = [] ∧ (s.lane l).limits.idleTimeout ≠ 0) :
    s.enterRun l = (s.enterLane l .run).modLane l fun c =>
      { c with idle := some (100 * (s.lane l).limits.idleTimeout) } := by
  rw [State.enterRun, State.testRelease_cannot cannot, State.startIdle_idle ((s.isIdle_enterRun l).mpr idle),
    State.lane_enterLane, if_pos rfl]

theorem State.enterRun_waits {s : State} {l : Lane} (cannot : (s.enterLane l .run).canRelease l = false)
    (busy : (s.lane l).blankReady = true ∨ s.queue l ≠ [] ∨ (s.lane l).limits.idleTimeout = 0) :
    s.enterRun l = s.enterLane l .run := by
  rw [State.enterRun, State.testRelease_cannot cannot, State.startIdle_busy]
  rw [s.isIdle_enterRun]
  rintro ⟨inactive, empty, timed⟩
  rcases busy with active | waits | never
  · rw [active] at inactive
    cases inactive
  · exact waits empty
  · exact timed never

/-- R186: who holds an event's role, and how it is stamped, is not a matter of the lanes. -/
theorem State.enterLane_ports (s : State) (l : Lane) (st : LaneState) :
    (s.enterLane l st).ports = (s.raise .laneState st.code 0 0 (laneCode l)).ports := rfl

/-- Settles O27. -/
theorem lanesEnterTheirStates : Obligations.LanesEnterTheirStates := fun s l =>
  ⟨fun st => ⟨(State.enterLane_evolves s l st).frame, rfl, s.enterLane_ports l st⟩,
    State.enterRun_releases,
    fun cannot => ⟨fun inactive empty timed => State.enterRun_idles cannot ⟨inactive, empty, timed⟩,
      State.enterRun_waits cannot⟩,
    fun _ _ => rfl⟩

/-! ## Drains -/

/-- R48: a lane that has taken the recipe its drain waited for. -/
def State.recipeTaken (s : State) (l : Lane) (r : Recipe) : State :=
  s.modLane l fun c => { c with target := .noTarget, current := r, pending := none }

theorem State.completeDrain_eq_off {s : State} {l : Lane} (target : (s.lane l).target = .off) :
    s.completeDrain l = (s.modLane l fun c => { c with target := .noTarget }).enterLane l .off := by
  rw [State.completeDrain, target]

theorem State.completeDrain_eq_recipe {s : State} {l : Lane} {r : Recipe} (target : (s.lane l).target = .recipe)
    (pending : (s.lane l).pending = some r) : s.completeDrain l =
      if r.toolSet = (s.lane l).current.toolSet then
        (s.recipeTaken l r).enterDelayed l .resuming (s.lane l).limits.resumeDelay
      else ((s.recipeTaken l r).enterLane l .toolChange).raise .toolChangeDue r.toolSet 0 0 (laneCode l) := by
  rw [State.completeDrain, target, pending]
  rfl

/-- R41: a lane in RUN whose queue has become shorter, and that cannot release. -/
theorem State.queueShortened_run {s : State} {l : Lane} (run : (s.lane l).state = .run) (cannot : s.canRelease l = false) :
    s.queueShortened l =
      if (s.lane l).blankReady = false ∧ s.queue l = [] ∧ (s.lane l).limits.idleTimeout ≠ 0 then
        s.modLane l fun c => { c with idle := some (100 * (s.lane l).limits.idleTimeout) } else s := by
  have goesOn : ¬ ((s.lane l).state = .drain ∧ s.queue l = []) := fun drained => by
    rw [run] at drained
    cases drained.1
  have idle : s.isIdle l = true ↔
      (s.lane l).blankReady = false ∧ s.queue l = [] ∧ (s.lane l).limits.idleTimeout ≠ 0 := by
    rw [s.isIdle_iff, and_iff_right run]
  rw [State.queueShortened, if_neg goesOn, State.testRelease_cannot cannot]
  split
  case isTrue holds => exact State.startIdle_idle (idle.mpr holds)
  case isFalse fails => exact State.startIdle_busy fun starts => fails (idle.mp starts)

theorem State.queueShortened_releases {s : State} {l : Lane} (run : (s.lane l).state = .run)
    (can : s.canRelease l = true) : s.queueShortened l = s.testRelease l := by
  have goesOn : ¬ ((s.lane l).state = .drain ∧ s.queue l = []) := fun drained => by
    rw [run] at drained
    cases drained.1
  rw [State.queueShortened, if_neg goesOn, State.testRelease_can can, State.startIdle_release]

/-- R11, R37: a release on one lane gives the other none that it could not have had before. -/
theorem State.canRelease_release {s : State} {l m : Lane} (other : m ≠ l) (cannot : s.canRelease m = false) :
    (s.release l).canRelease m = false := by
  rw [Bool.eq_false_iff] at cannot ⊢
  refine fun can => cannot ((s.canRelease_iff m).mpr ?_)
  rw [State.canRelease_iff, State.lane_release, State.queue_release, if_neg other, if_neg other] at can
  obtain ⟨run, waiting, room, idle, reserve⟩ := can
  rw [State.freeRecords, s.allocated_release, s.uncutStrips_release] at reserve
  refine ⟨run, waiting, room, idle, ?_⟩
  unfold State.freeRecords
  omega

theorem State.retest_one {s : State} (both : ¬ (s.canRelease .a && s.canRelease .b) = true) :
    s.retest = (s.testRelease .a).testRelease .b := if_neg both

theorem State.retest_a {s : State} (cannot : s.canRelease .b = false) : s.retest = s.testRelease .a := by
  have one := State.retest_one (s := s) (by rw [cannot, Bool.and_false]; nofun)
  rw [one]
  refine State.testRelease_cannot ?_
  unfold State.testRelease
  split
  · exact State.canRelease_release nofun cannot
  · exact cannot

theorem State.retest_b {s : State} (cannot : s.canRelease .a = false) : s.retest = s.testRelease .b := by
  rw [State.retest_one (by rw [cannot]; nofun), State.testRelease_cannot cannot]

/-- R37: when both lanes can release, a free choice says which comes first. -/
theorem State.retest_both {s : State} (a : s.canRelease .a = true) (b : s.canRelease .b = true) :
    ∃ l : Lane, s.retest =
      ((State.testRelease { s with choices := s.choices + 1 } l).testRelease (otherLane l)) :=
  ⟨_, if_pos (by rw [a, b]; rfl)⟩

/-- Settles O30. -/
theorem lanesAnswerChanges : Obligations.LanesAnswerChanges := by
  refine ⟨fun s l => ⟨fun drain empty => ?_, fun drain waits => ?_, State.queueShortened_releases,
    State.queueShortened_run, fun noDrain noRun => ?_⟩, fun s => ⟨State.retest_b, State.retest_a, State.retest_both⟩⟩
  · rw [State.queueShortened_drained drain empty]
    refine ⟨State.completeDrain_eq_off, fun r target pending taken took => ?_⟩
    rw [State.completeDrain_eq_recipe target pending, took]
    rfl
  · have other : (s.lane l).state ≠ .run := by rw [drain]; nofun
    exact State.queueShortened_other other fun drained => waits drained.2
  · exact State.queueShortened_other noRun fun drained => noDrain drained.1

/-! ## The lane commands -/

/-- A whole command's outcome, by the pair that its rule gives. -/
theorem exec_rule {c : Cmd} {n : Nat} {p : PortId} {s : State} {x : State × Result} {bs : List Byte} (ready : s.ready p c)
    (kind : c.row.kind = .whole n) (length : bs.length = n) (rule : Cmd.rule c bs s = x) :
    exec (frameInstr c p (.ends bs)) s = .next (x.1.setResult p x.2) := exec_taken ready kind length rule

/-- R33: a command that takes a lane code does on a lane what its rule says. -/
theorem exec_lane {c : Cmd} {f : Lane → State → State × Result} {p : PortId} {s : State} {l : Lane}
    {x : State × Result} (ready : s.ready p c) (kind : c.row.kind = .whole 1) (rule : Cmd.rule c = takeLane f)
    (taken : f l s = x) :
    exec (frameInstr c p (.ends [BitVec.ofNat 8 (laneCode l)])) s = .next (x.1.setResult p x.2) :=
  exec_taken ready kind rfl ((congrFun (congrFun rule _) s).trans ((takeLane_code f l s).trans taken))

/-- R33: a lane code that names neither lane. -/
theorem exec_lane_badField {c : Cmd} {f : Lane → State → State × Result} {p : PortId} {s : State} {b : Byte}
    (ready : s.ready p c) (kind : c.row.kind = .whole 1) (rule : Cmd.rule c = takeLane f) (above : 2 ≤ b.toNat) :
    exec (frameInstr c p (.ends [b])) s = .next (s.setResult p .badField) :=
  exec_taken ready kind rfl ((congrFun (congrFun rule _) s).trans (takeLane_none above f s))

/-- R45 to R47, R49: a drain entered on an empty queue completes at once. -/
theorem State.enterDrain_eq (s : State) (l : Lane) (target : DrainTarget) : s.enterDrain l target =
    if s.queue l = [] then ((s.modLane l fun c => { c with target := target }).enterLane l .drain).completeDrain l
    else (s.modLane l fun c => { c with target := target }).enterLane l .drain := rfl

theorem laneHold_eq (l : Lane) (s : State) : laneHold l s =
    if (s.lane l).state = .hold then (s, .ok)
    else if (s.lane l).state = .off ∨ (s.lane l).state = .drain ∨ (s.lane l).state = .toolChange then (s, .state)
    else (s.enterLane l .hold, .ok) := by
  unfold laneHold
  cases (s.lane l).state <;> rfl

theorem laneStop_eq (l : Lane) (s : State) : laneStop l s =
    if (s.lane l).state = .off then (s, .ok)
    else if (s.lane l).state = .drain then
      (if (s.lane l).target = .recipe then (s.modLane l fun c => { c with target := .off, pending := none }, .ok)
      else (s, .ok))
    else if s.queue l = [] then (s.enterLane l .off, .ok)
    else ((s.modLane l fun c => { c with target := .off }).enterLane l .drain, .ok) := by
  have stops : (if s.queue l = [] then (s.enterLane l .off, Result.ok) else (s.enterDrain l .off, .ok)) =
      if s.queue l = [] then (s.enterLane l .off, .ok)
      else ((s.modLane l fun c => { c with target := .off }).enterLane l .drain, .ok) := by
    split
    case isTrue => rfl
    case isFalse waits => rw [State.enterDrain_eq, if_neg waits]
  unfold laneStop
  cases (s.lane l).state
  case off | drain => rfl
  all_goals exact stops

/-- A lane command's outcome follows the branches of its rule. -/
theorem next_setResult_ite {c : Prop} [Decidable c] {p : PortId} {x y : State × Result} :
    (if c then x else y).1.setResult p (if c then x else y).2 = if c then x.1.setResult p x.2 else y.1.setResult p y.2 := by
  split <;> rfl

/-- Settles O28. -/
theorem laneCommands : Obligations.LaneCommands := by
  refine ⟨fun p s => ⟨fun c listed ready b above => ?_, fun l => ⟨fun ready => ?_, fun ready => ?_, fun ready => ?_⟩⟩,
    fun p s => ⟨fun c listed ready b above => ?_, fun l => ⟨fun ready => ?_, fun ready => ?_⟩⟩⟩
  · simp only [List.mem_cons, List.not_mem_nil, or_false] at listed
    rcases listed with rfl | rfl | rfl <;> exact exec_lane_badField ready rfl rfl above
  · exact (exec_lane (c := .laneStart) ready rfl rfl rfl).trans (congrArg Host.Outcome.next next_setResult_ite)
  · exact (exec_lane (c := .laneRun) ready rfl rfl rfl).trans (congrArg Host.Outcome.next next_setResult_ite)
  · exact (exec_lane (c := .toolReady) ready rfl rfl rfl).trans (congrArg Host.Outcome.next next_setResult_ite)
  · simp only [List.mem_cons, List.not_mem_nil, or_false] at listed
    rcases listed with rfl | rfl <;> exact exec_lane_badField ready rfl rfl above
  · refine (exec_lane (c := .laneHold) ready rfl rfl (laneHold_eq l s)).trans (congrArg Host.Outcome.next ?_)
    rw [next_setResult_ite, next_setResult_ite]
  · refine (exec_lane (c := .laneStop) ready rfl rfl (laneStop_eq l s)).trans (congrArg Host.Outcome.next ?_)
    rw [next_setResult_ite, next_setResult_ite, next_setResult_ite, next_setResult_ite]

/-! ## LANE_RECIPE -/

/-- R49: the drain towards a recipe that LANE_RECIPE starts. -/
def State.recipeDrain (s : State) (l : Lane) (r : Recipe) : State :=
  (s.modLane l fun c => { c with pending := some r, target := .recipe }).enterLane l .drain

theorem State.recipeDrain_lane (s : State) (l : Lane) (r : Recipe) : (s.recipeDrain l r).lane l =
    { s.lane l with state := .drain, target := .recipe, pending := some r, delay := none, idle := none } := by
  rw [State.recipeDrain, State.lane_enterLane, if_pos rfl, State.lane_modLane, if_pos rfl]

theorem State.enterDrain_recipe (s : State) (l : Lane) (r : Recipe) :
    (s.modLane l fun c => { c with pending := some r }).enterDrain l .recipe =
      if s.queue l = [] then (s.recipeDrain l r).completeDrain l else s.recipeDrain l r := by
  rw [State.enterDrain_eq, State.modLane_modLane]
  rfl

theorem laneRecipe_eq (l : Lane) (r : Recipe) (s : State) : laneRecipe l r s =
    if (s.lane l).state = .off then (s.modLane l fun c => { c with current := r }, .ok)
    else if (s.lane l).state = .drain ∨ (s.lane l).state = .toolChange then (s, .busy)
    else ((s.modLane l fun c => { c with pending := some r }).enterDrain l .recipe, .ok) := by
  unfold laneRecipe
  cases (s.lane l).state <;> rfl

theorem State.recipeDrain_completes (s : State) (l : Lane) (r : Recipe) : (s.recipeDrain l r).completeDrain l =
    if r.toolSet = (s.lane l).current.toolSet then
      ((s.recipeDrain l r).recipeTaken l r).enterDelayed l .resuming (s.lane l).limits.resumeDelay
    else (((s.recipeDrain l r).recipeTaken l r).enterLane l .toolChange).raise .toolChangeDue r.toolSet 0 0
      (laneCode l) := by
  have lane := s.recipeDrain_lane l r
  rw [State.completeDrain_eq_recipe (by rw [lane]) (by rw [lane]), lane]

theorem takeLaneRecipe_badField {lane pr : Byte} (bad : 2 ≤ lane.toNat ∨ 7 < pr.toNat) (w1 w0 t1 t0 tool : Byte) (s : State) :
    takeLaneRecipe [lane, pr, w1, w0, t1, t0, tool] s = (s, .badField) := by
  rw [takeLaneRecipe]
  rcases bad with above | above
  · rw [laneOfCode_eq_none above]
  · cases laneOfCode lane with
    | none => rfl
    | some l => exact if_neg (by omega)

theorem takeLaneRecipe_lane {l : Lane} {pr : Byte} (profile : pr.toNat ≤ 7) (w1 w0 t1 t0 tool : Byte) (s : State) :
    takeLaneRecipe [BitVec.ofNat 8 (laneCode l), pr, w1, w0, t1, t0, tool] s =
      laneRecipe l ⟨pr.toNat, 256 * w1.toNat + w0.toNat, 256 * t1.toNat + t0.toNat, tool.toNat⟩ s := by
  rw [takeLaneRecipe, laneOfCode_code]
  exact if_pos profile

/-- Settles O29. -/
theorem laneRecipesAreTaken : Obligations.LaneRecipesAreTaken := by
  intro p s ready lane pr w1 w0 t1 t0 tool
  refine ⟨fun bad => exec_taken (c := .laneRecipe) ready rfl rfl (takeLaneRecipe_badField bad w1 w0 t1 t0 tool s), ?_⟩
  rintro l rfl profile r rfl drain taken rfl rfl
  have rule : Cmd.rule .laneRecipe [BitVec.ofNat 8 (laneCode l), pr, w1, w0, t1, t0, tool] s = _ :=
    takeLaneRecipe_lane profile w1 w0 t1 t0 tool s
  generalize (Recipe.mk _ _ _ _) = r at rule ⊢
  refine (exec_rule ready rfl rfl rule).trans (congrArg Host.Outcome.next ?_)
  rw [laneRecipe_eq, next_setResult_ite, next_setResult_ite, State.enterDrain_recipe]
  by_cases waits : s.queue l = []
  case neg => rw [if_neg waits, if_pos waits]; rfl
  rw [if_pos waits, if_neg (not_not_intro waits), s.recipeDrain_completes]
  split
  case isTrue => rfl
  case isFalse =>
    split
    case isTrue => rfl
    case isFalse => split <;> rfl

end Sys2Proof.Machine

/-! Incremental frames group by group, and what the groups of LANE_CONFIG, MAP_WRITE and LIMITS_SET apply. -/

namespace Sys2Proof.Machine

/-! ## A group arrives -/

/-- A frame set to what it is leaves the state as it is. -/
theorem State.setPhase_same {s : State} {p : PortId} {code : Byte} {ph : Phase}
    (frame : (s.port p).frame = some ⟨code, ph⟩) : s.setPhase p code ph = s := by
  refine (State.modPort_congr s p (g := fun q => q) (by rw [← frame])).trans ?_
  exact congrArg (fun ports => { s with ports := ports }) (Vector.set_getElem_self p.isLt)

theorem State.setPhase_frame (s : State) (p : PortId) (code : Byte) (ph : Phase) :
    ((s.setPhase p code ph).port p).frame = some ⟨code, ph⟩ := by
  rw [State.port_setPhase, if_pos rfl]

section
variable {g : Grouped} {p : PortId} {s : State} {i : Incremental}

theorem groupedStep_bytes {f : Frame} (frame : (s.port p).frame = some f) (bs : List Byte) :
    groupedStep g p (.bytes bs) s = groupedBytes g p bs s := by
  simp only [groupedStep, frame]

theorem groupedByte_header (frame : (s.port p).frame = some ⟨g.cmd.code, .incremental i⟩) (awaited : i.header = .awaited)
    (b : Byte) : groupedByte g p s b = s.setPhase p g.cmd.code (.incremental
      (if (i.buf ++ [b]).length = g.headerLength then i.takeHeader (g.header (i.buf ++ [b]))
      else { i with buf := i.buf ++ [b] })) := by
  rw [groupedByte, State.phaseOf_some frame]
  exact if_pos awaited

section
variable (frame : (s.port p).frame = some ⟨g.cmd.code, .incremental i⟩) (started : i.header ≠ .awaited)
include frame started

theorem groupedByte_more {b : Byte} (more : (i.buf ++ [b]).length ≠ g.groupLength) :
    groupedByte g p s b = s.setPhase p g.cmd.code (.incremental { i with buf := i.buf ++ [b] }) := by
  rw [groupedByte, State.phaseOf_some frame]
  exact (if_neg started).trans (if_neg more)

theorem groupedByte_last {b : Byte} (last : (i.buf ++ [b]).length = g.groupLength) : groupedByte g p s b =
    ((g.apply { i with buf := [] } (i.buf ++ [b]) s).1).setPhase p g.cmd.code
      (.incremental (g.apply { i with buf := [] } (i.buf ++ [b]) s).2) := by
  rw [groupedByte, State.phaseOf_some frame]
  exact (if_neg started).trans (if_pos last)

variable (empty : i.buf = [])
include empty

/-- R182: a group that comes on a frame that awaits one. -/
theorem groupStep_awaiting (bs : List Byte) : groupStep g p bs s = groupedStep g p (.bytes bs) s := by
  have awaits : s.awaitsGroup p g.cmd.code = true := by
    simp [State.awaitsGroup, State.phaseOf_some frame, started, empty]
  have open_ : ¬ (s.port p).frame = none := by rw [frame]; exact Option.some_ne_none _
  rw [groupedStep_bytes frame, groupStep, if_neg open_]
  exact if_pos awaits

/-- R182: the bytes of a group are gathered until its last. -/
theorem groupedBytes_gathers (bs : List Byte) (short : bs.length < g.groupLength) :
    groupedBytes g p bs s = s.setPhase p g.cmd.code (.incremental { i with buf := bs }) := by
  have whole : { i with buf := [] } = i := by rw [← empty]
  induction bs using List.reverseRecOn with
  | nil => rw [whole, State.setPhase_same frame]; rfl
  | append_singleton bs b ih =>
    replace short : bs.length + 1 < g.groupLength := by simpa using short
    rw [groupedBytes_append, ih (by omega)]
    refine (groupedByte_more (i := { i with buf := bs }) (State.setPhase_frame ..) started ?_).trans (State.setPhase_setPhase ..)
    exact (List.length_append.trans rfl).trans_ne short.ne

/-- R182: a group is applied when its last byte has come. -/
theorem groupedStep_group (bs : List Byte) (b : Byte) (whole : bs.length + 1 = g.groupLength) : ∀ u : State,
    u = s.setPhase p g.cmd.code (.incremental { i with buf := bs }) → groupedStep g p (.bytes (bs ++ [b])) s =
      (g.apply i (bs ++ [b]) u).1.setPhase p g.cmd.code (.incremental (g.apply i (bs ++ [b]) u).2) := by
  rintro u rfl
  have cleared : { i with buf := [] } = i := by rw [← empty]
  rw [groupedStep_bytes frame, groupedBytes_append, groupedBytes_gathers frame started empty bs (by omega)]
  refine (groupedByte_last (i := { i with buf := bs }) (State.setPhase_frame ..) started
    (List.length_append.trans whole)).trans ?_
  dsimp only
  rw [cleared]

/-- R182: a group of one byte is applied as it comes. -/
theorem groupedStep_one (one : g.groupLength = 1) (b : Byte) : groupedStep g p (.bytes [b]) s =
    (g.apply i [b] s).1.setPhase p g.cmd.code (.incremental (g.apply i [b] s).2) := by
  have cleared : { i with buf := [] } = i := by rw [← empty]
  exact groupedStep_group frame started empty [] b one.symm s (by rw [cleared, State.setPhase_same frame])

end

/-- R180: the bytes of a frame that opens a command the port may issue. -/
theorem groupedStep_starts {c : Cmd} (isCmd : g.cmd = c) (ready : s.ready p c) (bs : List Byte) :
    groupedStep g p (.bytes bs) s =
      groupedBytes g p bs (s.setPhase p g.cmd.code (.incremental ⟨g.start, [], false, none⟩)) := by
  obtain ⟨quiet, may⟩ := ready
  have opened : groupedStep g p (.bytes bs) s = groupedBytes g p bs (openGrouped g p s) := by
    simp only [groupedStep, quiet]
  rw [opened, openGrouped, isCmd, may]
  rfl

end

/-- The two value bytes of a limit group, as they are clocked. -/
theorem limitBytes_word (ident v1 v0 : Byte) :
    limitBytes ident (BitVec.ofNat 16 (256 * v1.toNat + v0.toNat)) = [ident, v1, v0] := by
  have h1 := v1.isLt
  have h0 := v0.isLt
  have value : (BitVec.ofNat 16 (256 * v1.toNat + v0.toNat)).toNat = 256 * v1.toNat + v0.toNat := by
    rw [BitVec.toNat_ofNat]
    omega
  rw [limitBytes, be16, value]
  refine congrArg (ident :: ·) ?_
  congr 1
  · exact BitVec.eq_of_toNat_eq (by rw [BitVec.toNat_ofNat]; omega)
  · exact congrArg (· :: []) (BitVec.eq_of_toNat_eq (by rw [BitVec.toNat_ofNat]; omega))

theorem limitBytes_eq (ident : Byte) (value : BitVec 16) : limitBytes ident value =
    [ident, BitVec.ofNat 8 (value.toNat / 256), BitVec.ofNat 8 value.toNat] := rfl

theorem word16_of_value (value : BitVec 16) :
    word16 (BitVec.ofNat 8 (value.toNat / 256)) (BitVec.ofNat 8 value.toNat) = value.toNat := by
  have bound := value.isLt
  rw [word16, BitVec.toNat_ofNat, BitVec.toNat_ofNat]
  omega

/-! ## LANE_CONFIG -/

theorem laneConfigHeader_some {b : Byte} {l : Lane} (code : b.toNat = laneCode l) : laneConfigHeader [b] = .lane l := by
  rw [laneConfigHeader, laneOfCode_eq_some code]

theorem laneConfigHeader_failed (b : Byte) : (laneConfigHeader [b] == .failed) = true ↔ 2 ≤ b.toNat := by
  rw [beq_iff_eq]
  constructor
  · intro failed
    by_contra below
    rw [laneConfigHeader] at failed
    cases known : laneOfCode b with
    | some l => rw [known] at failed; cases failed
    | none =>
      have outside := List.getElem?_eq_none_iff.mp known
      exact below outside
  · intro above
    rw [laneConfigHeader, laneOfCode_eq_none above]

/-- R39: what a new IDLE_TIMEOUT makes of a running idle timer. -/
theorem LaneCtl.setIdleTimeout_eq (c : LaneCtl) (value : BitVec 16) : c.setIdleTimeout value.toNat = { c with
    limits.idleTimeout := value.toNat
    idle := if value = 0 then none else c.idle.map fun _ => 100 * value.toNat } := by
  unfold LaneCtl.setIdleTimeout
  by_cases off : value = 0
  · subst off
    simp
  · have timed : value.toNat ≠ 0 := fun zero => off (BitVec.eq_of_toNat_eq zero)
    rw [if_neg off]
    cases c.idle <;> simp [timed]

/-- R51: the ranges of the lane limits, and the lane with the limit set. -/
theorem LaneCtl.applyLimit_eq (c : LaneCtl) (ident : Byte) (value : BitVec 16) :
    c.applyLimit ident.toNat value.toNat =
      if (ident = 0 ∧ 1 ≤ value.toNat ∧ value.toNat ≤ 12 ∧ c.state = .off) ∨
        (ident = 1 ∧ value.toNat ≤ 60000) ∨ (ident = 2 ∧ value.toNat ≤ 60000) ∨ ident = 3 ∨
        (ident = 4 ∧ 1 ≤ value.toNat ∧ value.toNat ≤ 255) ∨
        (ident = 5 ∧ 1 ≤ value.toNat ∧ value.toNat ≤ 255)
      then some (
        if ident = 0 then { c with limits.capacity := value.toNat }
        else if ident = 1 then { c with limits.startDelay := value.toNat }
        else if ident = 2 then { c with limits.resumeDelay := value.toNat }
        else if ident = 3 then { c with
          limits.idleTimeout := value.toNat
          idle := if value = 0 then none else c.idle.map fun _ => 100 * value.toNat }
        else if ident = 4 then { c with limits.releasePulse := value.toNat }
        else { c with limits.outfeedPulse := value.toNat })
      else none := by
  simp only [← BitVec.toNat_inj (x := ident)]
  generalize ident.toNat = n
  match n with
  | 0 => simp [LaneCtl.applyLimit]
  | 1 => simp [LaneCtl.applyLimit]
  | 2 => simp [LaneCtl.applyLimit]
  | 3 => simpa [LaneCtl.applyLimit, LaneCtl.setIdleTimeout_eq] using Nat.le_of_lt_succ value.isLt
  | 4 => simp [LaneCtl.applyLimit]
  | 5 => simp [LaneCtl.applyLimit]
  | n + 6 => simp [LaneCtl.applyLimit]

theorem laneConfigApply_failed {i : Incremental} (failed : i.header = .failed) (bs : List Byte) (s : State) :
    laneConfigApply i bs s = (s, i) := by
  simp only [laneConfigApply, failed]

theorem laneConfigApply_lane {i : Incremental} {l : Lane} (header : i.header = .lane l) (ident : Byte)
    (value : BitVec 16) (s : State) : laneConfigApply i (limitBytes ident value) s =
      applyOrFail (s.applyLaneLimit l ident.toNat value.toNat) s i := by
  simp only [laneConfigApply, header, limitBytes_eq, word16_of_value]

section
variable {p : PortId} {s : State} {i : Incremental} (frame : (s.port p).frame = some ⟨0x16, .incremental i⟩)
  (empty : i.buf = [])
include frame empty

theorem execLaneConfig_group (started : i.header ≠ .awaited) (ident v1 v0 : Byte) :
    exec (.laneConfig p (.bytes [ident, v1, v0])) s =
      exec (.laneConfigGroup p ident (BitVec.ofNat 16 (256 * v1.toNat + v0.toNat))) s := by
  show Host.Outcome.next (groupedStep laneConfigGrouped p _ s) = .next (groupStep laneConfigGrouped p _ s)
  rw [limitBytes_word, groupStep_awaiting (g := laneConfigGrouped) frame started empty]

/-- R51: a limit group as its third byte arrives. -/
theorem execLaneConfigGroup_eq (started : i.header ≠ .awaited) (ident : Byte) (value : BitVec 16) : ∀ u : State,
    u = s.setPhase p 0x16 (.incremental { i with buf := [ident, BitVec.ofNat 8 (value.toNat / 256)] }) →
    exec (.laneConfigGroup p ident value) s = .next ((laneConfigApply i (limitBytes ident value) u).1.setPhase p 0x16
      (.incremental (laneConfigApply i (limitBytes ident value) u).2)) := by
  rintro u rfl
  refine congrArg Host.Outcome.next ((groupStep_awaiting (g := laneConfigGrouped) frame started empty _).trans ?_)
  exact groupedStep_group (g := laneConfigGrouped) frame started empty
    [ident, BitVec.ofNat 8 (value.toNat / 256)] (BitVec.ofNat 8 value.toNat) rfl _ rfl

theorem execLaneConfigGroup_failed (failed : i.header = .failed) (ident : Byte) (value : BitVec 16) :
    exec (.laneConfigGroup p ident value) s = .next s := by
  rw [execLaneConfigGroup_eq frame empty (by rw [failed]; nofun) ident value _ rfl, laneConfigApply_failed failed,
    State.setPhase_setPhase, State.setPhase_same frame]

/-- R51: a limit group of a lane is applied when it is good, and else fails the frame. -/
theorem execLaneConfigGroup_lane {l : Lane} (header : i.header = .lane l) (ident : Byte) (value : BitVec 16) :
    exec (.laneConfigGroup p ident value) s = .next (match (s.lane l).applyLimit ident.toNat value.toNat with
      | some c => s.modLane l fun _ => c
      | none => s.setPhase p 0x16 (.incremental { i with bad := true })) := by
  rw [execLaneConfigGroup_eq frame empty (by rw [header]; nofun) ident value _ rfl,
    laneConfigApply_lane header, State.applyLaneLimit]
  generalize { i with buf := _ } = j
  have lane : (s.setPhase p 0x16 (.incremental j)).lane l = s.lane l := rfl
  rw [lane]
  cases (s.lane l).applyLimit ident.toNat value.toNat with
  | none => exact congrArg Host.Outcome.next (State.setPhase_setPhase ..)
  | some c =>
    have commuted : ((s.setPhase p 0x16 (.incremental j)).modLane l fun _ => c).setPhase p 0x16 (.incremental i) =
        ((s.setPhase p 0x16 (.incremental j)).setPhase p 0x16 (.incremental i)).modLane l fun _ => c := rfl
    refine congrArg Host.Outcome.next (commuted.trans ?_)
    rw [State.setPhase_setPhase, State.setPhase_same frame]

end

/-- Settles O31. -/
theorem laneLimitsAreSet : Obligations.LaneLimitsAreSet := by
  intro p s
  refine ⟨fun ready b => ?_, fun i frame empty => ⟨fun ident v1 v0 started => execLaneConfig_group frame empty started ident v1 v0,
    fun failed => execLaneConfigGroup_failed frame empty failed, fun l header ident value => ?_⟩⟩
  · refine ⟨Incremental.takeHeader ⟨.awaited, [], false, none⟩ (laneConfigHeader [b]), ?_, rfl,
      laneConfigHeader_failed b, fun l code => laneConfigHeader_some code⟩
    refine congrArg Host.Outcome.next ((groupedStep_starts (g := laneConfigGrouped) rfl ready [b]).trans ?_)
    exact (groupedByte_header (g := laneConfigGrouped) (State.setPhase_frame ..) rfl b).trans (State.setPhase_setPhase ..)
  · refine ⟨_, execLaneConfigGroup_lane frame empty header ident value, fun good isGood => ?_⟩
    rw [LaneCtl.applyLimit_eq]
    refine ⟨fun bad => ?_, fun applied => ?_⟩
    · rw [if_neg fun holds => ?_]
      rw [isGood.mpr holds] at bad
      cases bad
    · rw [if_pos (isGood.mp applied)]
      exact State.modLane_congr rfl

end Sys2Proof.Machine

/-! BLANK_READY's edges and the run-outs of the lane timers. -/

namespace Sys2Proof.Machine

/-! ## The edges of BLANK_READY -/

theorem State.blankReadyActive_same {s : State} {l : Lane} (active : (s.lane l).blankReady = true) :
    s.blankReadyActive l = s := if_pos active

theorem State.blankReadyActive_edge {s : State} {l : Lane} (inactive : (s.lane l).blankReady = false) :
    s.blankReadyActive l = if (s.lane l).state = .standby then
      (s.modLane l LaneCtl.blankArrives).enterDelayed l .resuming (s.lane l).limits.resumeDelay
    else (s.modLane l LaneCtl.blankArrives).testRelease l :=
  if_neg (Bool.eq_false_iff.mp inactive)

theorem State.blankReadyInactive_same {s : State} {l : Lane} (inactive : (s.lane l).blankReady = false) :
    s.blankReadyInactive l = s := if_neg (Bool.eq_false_iff.mp inactive)

/-- R35, R39: an input that becomes inactive may start the idle timer. -/
theorem State.blankReadyInactive_edge {s : State} {l : Lane} (active : (s.lane l).blankReady = true) :
    s.blankReadyInactive l = s.modLane l fun c => { c with
      blankReady := false
      blankWaiting := false
      idle := if (s.lane l).state = .run ∧ s.queue l = [] ∧ (s.lane l).limits.idleTimeout ≠ 0 then
        some (100 * (s.lane l).limits.idleTimeout) else c.idle } := by
  have left : s.blankReadyInactive l = (s.modLane l LaneCtl.blankLeaves).startIdle l := if_pos active
  have lane : (s.modLane l LaneCtl.blankLeaves).lane l = (s.lane l).blankLeaves := by rw [State.lane_modLane, if_pos rfl]
  have idle : (s.modLane l LaneCtl.blankLeaves).isIdle l = true ↔
      (s.lane l).state = .run ∧ s.queue l = [] ∧ (s.lane l).limits.idleTimeout ≠ 0 := by
    rw [State.isIdle_iff, lane]
    exact and_congr_right fun _ => and_iff_right rfl
  rw [left]
  split
  case isTrue starts =>
    rw [State.startIdle_idle (idle.mpr starts), lane, State.modLane_modLane]
    rfl
  case isFalse stays => exact State.startIdle_busy fun starts => stays (idle.mp starts)

/-- Settles O32. -/
theorem blankReadyEdges : Obligations.BlankReadyEdges := fun _ _ =>
  ⟨fun active => congrArg Host.Outcome.next (State.blankReadyActive_same active),
    fun inactive _ arrived => arrived ▸ congrArg Host.Outcome.next (State.blankReadyActive_edge inactive),
    fun inactive => congrArg Host.Outcome.next (State.blankReadyInactive_same inactive),
    fun active => congrArg Host.Outcome.next (State.blankReadyInactive_edge active)⟩

/-! ## Run-outs -/

/-- A run-out that is due at its tick happens there. -/
theorem State.timerRunsOut_some {s : State} {timer : Option Nat} {d : Nat} (runs : timer = some d) (due : Due) (t : State)
    (passed : t = s.elapse (if d = 0 then 0 else 1000 * d - s.time.subMs)) :
    s.timerRunsOut timer due = if due ∈ t.dueNow then t.takeDue due else t := by
  subst runs passed
  rfl

theorem State.timerRunsOut_none {s : State} {timer : Option Nat} (stopped : timer = none) (due : Due) :
    s.timerRunsOut timer due = s := by
  subst stopped
  rfl

/-- R44, R57: the end of the OUTFEED pulse makes a request of a strip that stands at the exit. -/
theorem State.outfeedEnds_eq (s : State) (l : Lane) : s.outfeedEnds l =
    if s.frontAtExit l then (s.modLane l fun c => { c with outfeedTimer := none }).arbitrate
    else s.modLane l fun c => { c with outfeedTimer := none } := by
  have requests : (s.modLane l fun c => { c with outfeedTimer := none }).requests l = s.frontAtExit l := by
    rw [State.requests, State.lane_modLane, if_pos rfl]
    exact Bool.and_true _
  unfold State.outfeedEnds
  dsimp only
  rw [requests]

/-- R32, R96: while nothing is due and nothing runs out, the timers count. -/
theorem State.elapse_milliseconds {s : State} {d : Nat} (some_ : d ≠ 0) (within : s.time.subMs < 1000)
    (quiet : s.dueAll = [])
    (lanes : ∀ k x, (s.lane k).delay = some x ∨ (s.lane k).idle = some x ∨ (s.lane k).releaseTimer = some x ∨
      (s.lane k).outfeedTimer = some x → d ≤ x)
    (channels : ∀ c left, (s.channel c).state = .pulsing left ∨ (s.channel c).state = .recovering left →
      1000 * d - s.time.subMs ≤ left) :
    s.elapse (1000 * d - s.time.subMs) = s.countDown (1000 * d - s.time.subMs) := by
  refine State.elapse_quiet quiet (State.rests_ge (fun k x runs => ?_) channels) (by omega)
  have after := lanes k x runs
  rw [State.untilTick, if_neg (by omega)]
  omega

theorem State.lane_countDown_ticks {s : State} {us d : Nat} (ticks : s.time.subMs + us = 1000 * d) (k : Lane) :
    (s.countDown us).lane k = (s.lane k).countDown d := by
  have count : (s.time.subMs + us) / 1000 = d := by omega
  cases k <;> exact congrArg (LaneCtl.countDown · _) count

theorem State.time_countDown_ticks {s : State} {us d : Nat} (ticks : s.time.subMs + us = 1000 * d) :
    (s.countDown us).time = ⟨s.time.ms + BitVec.ofNat 16 d, 0⟩ := by
  have count : (s.time.subMs + us) / 1000 = d := by omega
  have rest : (s.time.subMs + us) % 1000 = 0 := by omega
  show Time.mk _ _ = _
  rw [count, rest]

theorem Channel.countDown_eq (c : Channel) (us : Nat) : c.countDown us = { c with state := match c.state with
    | .idle => .idle
    | .pulsing left => .pulsing (left - us)
    | .recovering left => .recovering (left - us) } := by
  cases c with | mk state =>
  cases state <;> rfl

/-- Settles O33. -/
theorem laneTimersRunOut : Obligations.LaneTimersRunOut := by
  intro l s
  refine ⟨fun d t passed => ⟨fun runs => ?_, fun runs => ?_, fun runs => ?_, fun runs u ended => ?_⟩,
    fun stopped => congrArg Host.Outcome.next (State.timerRunsOut_none stopped _),
    fun stopped => congrArg Host.Outcome.next (State.timerRunsOut_none stopped _),
    fun stopped => congrArg Host.Outcome.next (State.timerRunsOut_none stopped _),
    fun stopped => congrArg Host.Outcome.next (State.timerRunsOut_none stopped _),
    s.elapse_zero, fun d some_ within quiet lanes channels t passed => ?_⟩
  · refine congrArg Host.Outcome.next ((State.timerRunsOut_some runs (.delay l) t passed).trans ?_)
    exact if_congr (t.delay_due l) rfl rfl
  · refine congrArg Host.Outcome.next ((State.timerRunsOut_some runs (.idle l) t passed).trans ?_)
    exact if_congr (t.idle_due l) rfl rfl
  · refine congrArg Host.Outcome.next ((State.timerRunsOut_some runs (.releaseEnd l) t passed).trans ?_)
    exact if_congr (t.releaseEnd_due l) rfl rfl
  · refine congrArg Host.Outcome.next ((State.timerRunsOut_some runs (.outfeedEnd l) t passed).trans ?_)
    exact if_congr (t.outfeedEnd_due l) (ended ▸ t.outfeedEnds_eq l) rfl
  · rw [State.elapse_milliseconds some_ within quiet lanes channels] at passed
    subst passed
    have ticks : s.time.subMs + (1000 * d - s.time.subMs) = 1000 * d := by omega
    refine ⟨State.time_countDown_ticks ticks, (State.countDown_evolves ..).frame.mono, State.lane_countDown_ticks ticks,
      rfl, fun c => ?_⟩
    exact (State.channel_countDown ..).trans (Channel.countDown_eq ..)

end Sys2Proof.Machine

/-! Hold causes, line faults, the merge arbiter, and what lets it grant. -/

namespace Sys2Proof.Machine

/-! ## Hold causes and line faults -/

theorem Holds.isEmpty_iff (h : Holds) : h.isEmpty = true ↔ h = ⟨false, false, false, false, false, false⟩ := by
  cases h
  simp [Holds.isEmpty, and_assoc]

theorem ite_ne_eq_mul_toNat (a b : Bool) (w : Nat) : (if a ≠ b then w else 0) = w * (a != b).toNat := by
  cases a <;> cases b <;> simp

/-- R169: the causes in which two sets differ are a sum of one weight for each. -/
theorem Holds.changed_eq (h k : Holds) : h.changed k =
    (if h.guardCause ≠ k.guardCause then 1 else 0) + (if h.operator ≠ k.operator then 2 else 0) +
      (if h.phantom ≠ k.phantom then 4 else 0) + (if h.stray ≠ k.stray then 8 else 0) +
      (if h.rejectFull ≠ k.rejectFull then 16 else 0) + (if h.runoutFull ≠ k.runoutFull then 32 else 0) := by
  simp only [Holds.changed, flagBits, ite_ne_eq_mul_toNat]
  omega

/-- R169, R170: a change of the causes, and the arbiter asked when none is left. -/
theorem State.setHolds_changed {s : State} {h : Holds} (differs : h ≠ s.holds) : s.setHolds h =
    if h = ⟨false, false, false, false, false, false⟩ then
      (State.raise { s with holds := h } .holdChange h.flags 0 0 (h.changed s.holds)).arbitrate
    else State.raise { s with holds := h } .holdChange h.flags 0 0 (h.changed s.holds) := by
  rw [State.setHolds, if_neg differs]
  exact if_congr h.isEmpty_iff rfl rfl

theorem State.lineHold_iff (s : State) : s.lineHold = true ↔ s.holds ≠ ⟨false, false, false, false, false, false⟩ := by
  rw [State.lineHold, Bool.not_eq_true', ← Bool.not_eq_true, s.holds.isEmpty_iff]

/-- R197: a fault is captured when the record is empty. -/
theorem State.lineFault_captured {s : State} (empty : s.audit.fault = none) (kind : FaultKind) (n : StripNum) (k x : Nat) :
    (s.lineFault kind n k x).audit =
      { s.audit with fault := some ⟨kind, n, k, x, s.track.position, s.time.ms⟩ } := by
  show (s.offerFault kind n k x).audit = _
  rw [State.offerFault, empty]

theorem State.lineFault_kept {s : State} (full : s.audit.fault ≠ none) (kind : FaultKind) (n : StripNum) (k x : Nat) :
    (s.lineFault kind n k x).audit = s.audit := by
  obtain ⟨f, holds⟩ := Option.ne_none_iff_exists'.mp full
  show (s.offerFault kind n k x).audit = _
  rw [State.offerFault, holds]

theorem State.lineFault_ports (s : State) (kind : FaultKind) (n : StripNum) (k x : Nat) :
    (s.lineFault kind n k x).ports = (s.raise .fault kind.code n k x).ports := by
  unfold State.lineFault State.offerFault
  split <;> rfl

/-- Settles O35. -/
theorem holdCausesAndLineFaults : Obligations.HoldCausesAndLineFaults := by
  refine ⟨fun s h => ⟨State.setHolds_self, fun t raised differs => ?_, s.lineHold_iff⟩, fun s kind n k x =>
    ⟨(State.lineFault_evolves s kind n k x).frame, fun empty => State.lineFault_captured empty kind n k x,
      fun full => State.lineFault_kept full kind n k x, s.lineFault_ports kind n k x⟩⟩
  rw [← Holds.flags_eq, ← Holds.changed_eq] at raised
  rw [State.setHolds_changed differs, raised]

/-- Settles O37. -/
theorem causesAreCleared : Obligations.CausesAreCleared := fun _ _ =>
  ⟨fun ready => exec_taken (c := .resume) ready rfl rfl rfl,
    fun ready => exec_taken (c := .rejectCleared) ready rfl rfl rfl,
    fun ready => exec_taken (c := .runoutCleared) ready rfl rfl rfl⟩

/-! ## Requests and the winner -/

theorem State.frontAtExit_iff (s : State) (l : Lane) :
    s.frontAtExit l = true ↔ ∃ r rest, s.queue l = r :: rest ∧ r.state = .atExit := by
  unfold State.frontAtExit
  cases front : s.queue l with
  | nil => simp
  | cons r rest => simp

theorem State.requests_iff (s : State) (l : Lane) : s.requests l = true ↔
    (∃ r rest, s.queue l = r :: rest ∧ r.state = .atExit) ∧ (s.lane l).outfeedTimer = none := by
  rw [State.requests, Bool.and_eq_true, s.frontAtExit_iff, Bool.not_eq_true', LaneCtl.outfeedOutput,
    Option.isSome_eq_false_iff, Option.isNone_iff_eq_none]

theorem State.winner_none {s : State} (none_ : ∀ l, s.requests l = false) : s.winner = none := by
  rw [State.winner, none_, none_]

/-- R57: a lane wins by its request, when the other makes one by the policy. -/
def State.wins (u : State) (l : Lane) : Prop := u.requests l = true ∧ (u.requests (otherLane l) = true →
  (u.merge.policy = .primaryA ∧ l = .a) ∨ (u.merge.policy = .primaryB ∧ l = .b) ∨
    (u.merge.policy = .alternate ∧
      ((u.merge.lastWinner = none ∧ l = .a) ∨ u.merge.lastWinner = some (otherLane l))))

theorem Merge.favours_of {m : Merge} {l : Lane} (policy : (m.policy = .primaryA ∧ l = .a) ∨
    (m.policy = .primaryB ∧ l = .b) ∨ (m.policy = .alternate ∧
      ((m.lastWinner = none ∧ l = .a) ∨ m.lastWinner = some (otherLane l)))) : m.favours = l := by
  unfold Merge.favours
  rcases policy with ⟨named, rfl⟩ | ⟨named, rfl⟩ | ⟨named, ⟨first, rfl⟩ | before⟩
  · rw [named]
  · rw [named]
  · rw [named, first]
  · rw [named, before]
    cases l <;> rfl

/-- R57: the winner, from the side of a lane that makes a request. -/
theorem State.winner_eq {s : State} {l : Lane} (requests : s.requests l = true) :
    s.winner = if s.requests (otherLane l) then some s.merge.favours else some l := by
  unfold State.winner
  cases l with
  | a =>
    rw [requests, show otherLane .a = .b from rfl]
    cases s.requests .b <;> rfl
  | b =>
    rw [requests, show otherLane .b = .a from rfl]
    cases s.requests .a <;> rfl

theorem State.winner_of_wins {s : State} {l : Lane} (wins : s.wins l) : s.winner = some l := by
  obtain ⟨requests, policy⟩ := wins
  rw [State.winner_eq requests]
  split
  case isTrue other => rw [Merge.favours_of (policy other)]
  case isFalse => rfl

theorem State.winner_of_request {s : State} {l : Lane} (requests : s.requests l = true) :
    ∃ m, s.winner = some m := by
  rw [State.winner_eq requests]
  split <;> exact ⟨_, rfl⟩

/-! ## The arbiter -/

theorem State.slotOpen_iff (s : State) : s.slotOpen = true ↔
    s.holds = ⟨false, false, false, false, false, false⟩ ∧ s.merge.gapOpen = true := by
  rw [State.slotOpen, Bool.and_eq_true, s.holds.isEmpty_iff]

theorem State.arbitrateWhile_unasked {s : State} (none_ : s.winner = none) (fuel : Nat) : s.arbitrateWhile fuel = s := by
  cases fuel with
  | zero => rfl
  | succ fuel => rw [State.arbitrateWhile, none_]

theorem State.arbitrateWhile_shut {s : State} (shut : s.slotOpen = false) (fuel : Nat) : s.arbitrateWhile fuel = s := by
  cases fuel with
  | zero => rfl
  | succ fuel =>
    rw [State.arbitrateWhile, shut]
    cases s.winner <;> rfl

/-- R57: the arbiter grants to the winner, and with MERGE_GAP 0 goes on. -/
theorem State.arbitrateWhile_grants {s : State} {l : Lane} (winner : s.winner = some l) (slot : s.slotOpen = true)
    (fuel : Nat) : s.arbitrateWhile (fuel + 1) =
      if s.merge.mergeGap = 0 then State.arbitrateWhile fuel { s.grant l with merge.gapOpen := true } else s.grant l := by
  rw [State.arbitrateWhile, winner]
  exact if_pos slot

/-- R58: what a grant to a lane with a record leaves of the arbiter's own state. -/
theorem State.grant_merge {s : State} {l : Lane} {r : StripRec} {rest : List StripRec} (front : s.queue l = r :: rest) :
    (s.grant l).merge = s.mergeAfter l := by
  unfold State.grant
  rw [front]
  dsimp only
  rw [(State.queueShortened_evolves ..).frame.merge, (State.traceEntry_frame ..).merge, (State.traceEntry_frame ..).merge]

theorem State.grant_mergeGap (s : State) (l : Lane) : (s.grant l).merge.mergeGap = s.merge.mergeGap := by
  cases front : s.queue l with
  | nil => rw [State.grant, front]
  | cons r rest => rw [State.grant_merge front]; rfl

/-- R56: with MERGE_GAP 0 the slot stays open after a grant. -/
theorem State.slotOpen_regranted {s : State} (slot : s.slotOpen = true) (l : Lane) :
    State.slotOpen { s.grant l with merge.gapOpen := true } = true := by
  rw [State.slotOpen_iff] at slot ⊢
  exact ⟨(State.grant_evolves s l).frame.holds.trans slot.1, rfl⟩

section
variable {s : State} (slot : s.slotOpen = true) {l : Lane} (winner : s.winner = some l)
include slot winner

theorem State.arbitrate_gap (gap : s.merge.mergeGap ≠ 0) : s.arbitrate = s.grant l :=
  (State.arbitrateWhile_grants winner slot 1).trans (if_neg gap)

section
variable (gap : s.merge.mergeGap = 0)
include gap

theorem State.arbitrate_once (alone : State.winner { s.grant l with merge.gapOpen := true } = none) :
    s.arbitrate = { s.grant l with merge.gapOpen := true } :=
  ((State.arbitrateWhile_grants winner slot 1).trans (if_pos gap)).trans (State.arbitrateWhile_unasked alone 1)

theorem State.arbitrate_twice {m : Lane} (next : State.winner { s.grant l with merge.gapOpen := true } = some m) :
    s.arbitrate = { State.grant { s.grant l with merge.gapOpen := true } m with merge.gapOpen := true } := by
  have again := State.arbitrateWhile_grants next (State.slotOpen_regranted slot l) 0
  rw [if_pos (show (s.grant l).merge.mergeGap = 0 from (s.grant_mergeGap l).trans gap)] at again
  exact ((State.arbitrateWhile_grants winner slot 1).trans (if_pos gap)).trans again

theorem State.arbitrate_gapOpen : s.arbitrate.merge.gapOpen = true := by
  cases next : State.winner { s.grant l with merge.gapOpen := true } with
  | none => rw [State.arbitrate_once slot winner gap next]
  | some m => rw [State.arbitrate_twice slot winner gap next]

end
end

/-- R58: a grant, with the lane's record named. -/
theorem State.grant_cons {s : State} {l : Lane} {r : StripRec} {rest : List StripRec} (front : s.queue l = r :: rest) :
    s.grant l = (((({ (s.toTransit l r rest).modLane l LaneCtl.startOutfeed with merge := s.mergeAfter l } : State).traceEntry
      (r.traced && s.passedOver l) .mergeWait 0 0).traceEntry r.traced .granted 0 0).queueShortened l) := by
  rw [State.grant, front]

/-- Settles O38. -/
theorem theArbiterGrants : Obligations.TheArbiterGrants := by
  refine fun s => ⟨s.requests_iff, fun shut => ?_, fun empty opened gap ⟨l, requests⟩ => ?_,
    fun wins granted winsIff grants empty opened l r rest won front => ?_⟩
  · rcases shut with causes | closed | none_
    · refine State.arbitrateWhile_shut (Bool.eq_false_iff.mpr fun slot => ?_) 2
      exact causes (s.slotOpen_iff.mp slot).1
    · refine State.arbitrateWhile_shut (Bool.eq_false_iff.mpr fun slot => ?_) 2
      rw [(s.slotOpen_iff.mp slot).2] at closed
      cases closed
    · exact State.arbitrateWhile_unasked (State.winner_none none_) 2
  · obtain ⟨m, winner⟩ := State.winner_of_request requests
    exact State.arbitrate_gapOpen (s.slotOpen_iff.mpr ⟨empty, opened⟩) winner gap
  · have slot := s.slotOpen_iff.mpr ⟨empty, opened⟩
    have granting : ∀ (u : State) (m : Lane) (x : StripRec) (xs : List StripRec), u.queue m = x :: xs →
        u.grant m = granted u m x xs := fun u m x xs front =>
      (State.grant_cons front).trans (grants u m x xs _ _ rfl rfl).symm
    have winner := State.winner_of_wins ((winsIff s l).mp won)
    refine ⟨fun gap => (State.arbitrate_gap slot winner gap).trans (granting s l r rest front), fun gap u after => ?_⟩
    rw [← granting s l r rest front] at after
    subst after
    refine ⟨fun none_ => State.arbitrate_once slot winner gap (State.winner_none none_), fun m r2 rest2 won2 front2 => ?_⟩
    rw [State.arbitrate_twice slot winner gap (State.winner_of_wins ((winsIff _ m).mp won2)),
      granting _ m r2 rest2 front2]

/-! ## The merge gap and the exit eye -/

theorem State.gapDue_iff (s : State) : s.gapDue = true ↔ s.merge.gapOpen = false ∧
    (s.track.position - (s.merge.lastGrant + BitVec.ofNat 24 s.merge.mergeGap)).toNat < 8388608 := by
  rw [State.gapDue, Bool.and_eq_true, Bool.not_eq_true', State.gapReached, State.reached, decide_eq_true_iff, beyond]

theorem State.exitEye_empty {s : State} {l : Lane} (empty : s.queue l = []) :
    s.exitEye l = (s.lineFault .exitStray 0 0 (laneCode l)).setHolds { s.holds with phantom := true } := by
  rw [State.exitEye, empty]
  show State.setHolds _ { (s.lineFault .exitStray 0 0 (laneCode l)).holds with phantom := true } = _
  rw [(State.lineFault_evolves ..).frame.holds]

theorem State.exitEye_stray {s : State} {l : Lane} {r : StripRec} {rest : List StripRec} (front : s.queue l = r :: rest)
    (other : r.state ≠ .inMoulder) :
    s.exitEye l = (s.lineFault .exitStray r.number 0 (laneCode l)).setHolds { s.holds with phantom := true } := by
  rw [State.exitEye, front]
  refine (if_neg other).trans ?_
  show State.setHolds _ { (s.lineFault .exitStray r.number 0 (laneCode l)).holds with phantom := true } = _
  rw [(State.lineFault_evolves ..).frame.holds]

/-- R42, R57: a strip that comes to the exit makes a request unless its lane's OUTFEED pulse runs. -/
theorem State.exitEye_exits {s t : State} {l : Lane} {r : StripRec} {rest : List StripRec} (front : s.queue l = r :: rest)
    (inMoulder : r.state = .inMoulder)
    (moved : t = (s.setQueue l ({ r with state := .atExit } :: rest)).traceEntry r.traced .atExit 0 0) :
    s.exitEye l = if (s.lane l).outfeedTimer = none then t.arbitrate else t := by
  have lane : t.lane l = s.lane l := by
    rw [moved, State.lane, (State.traceEntry_frame ..).lanes]
    rfl
  have queue : t.queue l = { r with state := .atExit } :: rest := by
    rw [moved, State.queue, (State.traceEntry_frame ..).track]
    exact (State.queue_setQueue ..).trans (if_pos rfl)
  have requests : t.requests l = true ↔ (s.lane l).outfeedTimer = none := by
    rw [t.requests_iff, lane]
    exact and_iff_right ⟨_, _, queue, rfl⟩
  rw [State.exitEye, front]
  refine (if_pos inMoulder).trans ?_
  unfold State.frontExits
  dsimp only
  rw [← moved]
  exact if_congr requests rfl rfl

/-- Settles O39. -/
theorem theGapOpensAndStripsExit : Obligations.TheGapOpensAndStripsExit := by
  refine ⟨fun s => ⟨fun notDue => congrArg Host.Outcome.next (if_neg fun due => ?_),
    fun closed reached => congrArg Host.Outcome.next (if_pos (s.gapDue_iff.mpr ⟨closed, reached⟩))⟩, fun l s =>
    ⟨fun empty u raised => raised ▸ congrArg Host.Outcome.next (State.exitEye_empty empty), fun r rest front =>
      ⟨fun other u raised => raised ▸ congrArg Host.Outcome.next (State.exitEye_stray front other),
        fun inMoulder t moved => congrArg Host.Outcome.next (State.exitEye_exits front inMoulder moved)⟩⟩⟩
  obtain ⟨closed, reached⟩ := s.gapDue_iff.mp due
  rcases notDue with opened | ahead
  · rw [closed] at opened
    cases opened
  · omega

end Sys2Proof.Machine

/-! The transit timeout, and the entry gauge at the edges of its eye. -/

namespace Sys2Proof.Machine

/-! ## The transit timeout -/

theorem State.Removal.andThen {transit : List StripRec} {belt : List BeltRec} {gone : FireEntry → Prop} {bs : List Block}
    {s t u : State} (h : s.Removal transit belt gone t) (k : t.Evolves bs u) (listed : bs ⊆ removalBlocks := by decide)
    (track : Block.track ∉ bs := by decide) (fire : Block.fire ∉ bs := by decide) : s.Removal transit belt gone u := by
  have sameTrack := k.frame.track track
  have sameFire := k.frame.fire fire
  refine ⟨h.evolves.trans (k.mono listed), by rw [sameTrack, h.transit], by rw [sameTrack, h.belt],
    by rw [sameFire, h.channels], fun e => by rw [sameFire, h.schedule], fun l => ?_⟩
  rw [State.queue, sameTrack]
  exact h.queues l

theorem State.missing_removal (s : State) (r : StripRec) : s.Removal (s.track.transit.erase r) s.track.belt
    (fun e => e.names r.number 0 = true) (s.missing r) :=
  (s.removeTransit_removal r .missing).andThen (State.lineFault_evolves ..)

theorem State.afterStripRemoval_merge (s : State) (r : StripRec) (cause : Cause) :
    (s.afterStripRemoval r cause).merge = s.merge := by
  unfold State.afterStripRemoval
  rw [(State.retest_evolves _).frame.merge, (State.auditRemoval_evolves ..).frame.merge,
    (State.cancelEntries_evolves ..).frame.merge]

/-- R61: a removal changes neither the belt position nor the limit, so what is due of the others stays due. -/
theorem State.missing_transitDue (s : State) (r : StripRec) : (s.missing r).transitDue = s.transitDue := by
  have merge : (s.missing r).merge = s.merge := by
    unfold State.missing
    rw [(State.lineFault_evolves ..).frame.merge]
    exact State.afterStripRemoval_merge ..
  have position : (s.missing r).track.position = s.track.position := (s.missing_removal r).evolves.position
  unfold State.transitDue State.reached
  rw [merge, position]

/-- R61: the oldest transit record is removed as missing and reported. -/
def State.missingOldest (s : State) (r : StripRec) : State :=
  (State.afterStripRemoval { s with track.transit := s.track.transit.tail } r .missing).lineFault .missing r.number 0
    (laneCode r.lane)

theorem State.missing_eq {s : State} {r : StripRec} {rest : List StripRec} (oldest : s.track.transit = r :: rest) :
    s.missing r = s.missingOldest r := by
  have erased : s.track.transit.erase r = s.track.transit.tail := by rw [oldest, List.erase_cons_head, List.tail_cons]
  unfold State.missing State.removeTransit State.missingOldest
  rw [erased]

theorem State.timeoutWhile_takes {s : State} {r : StripRec} {rest : List StripRec} (oldest : s.track.transit = r :: rest)
    (due : s.transitDue r = true) (fuel : Nat) : s.timeoutWhile (fuel + 1) = (s.missing r).timeoutWhile fuel := by
  rw [State.timeoutWhile, oldest]
  exact if_pos due

theorem State.timeoutWhile_waits {s : State} {r : StripRec} {rest : List StripRec} (oldest : s.track.transit = r :: rest)
    (notDue : s.transitDue r = false) (fuel : Nat) : s.timeoutWhile (fuel + 1) = s := by
  rw [State.timeoutWhile, oldest]
  exact if_neg (Bool.eq_false_iff.mp notDue)

/-- R61: the records that are due, from the oldest on, leave one by one. -/
theorem State.timeoutWhile_eq (s : State) : s.timeoutWhile s.track.transit.length =
    (s.track.transit.takeWhile s.transitDue).foldl State.missingOldest s := by
  generalize records : s.track.transit = rs
  induction rs generalizing s with
  | nil => rfl
  | cons r rest ih =>
    rw [List.length_cons]
    cases due : s.transitDue r with
    | false =>
      rw [State.timeoutWhile_waits records due, List.takeWhile_cons_of_neg (Bool.eq_false_iff.mp due)]
      rfl
    | true =>
      have left : (s.missing r).track.transit = rest := by
        rw [(s.missing_removal r).transit, records, List.erase_cons_head]
      rw [State.timeoutWhile_takes records due, ih _ left, s.missing_transitDue,
        List.takeWhile_cons_of_pos due, List.foldl_cons, State.missing_eq records]

/-- R21, R61: what the records that leave together make of the rest of the part. -/
theorem State.testTransit_removal (s : State) : ∃ gone, s.Removal (s.track.transit.dropWhile s.transitDue) s.track.belt
    gone s.testTransit := by
  unfold State.testTransit
  generalize records : s.track.transit = rs
  induction rs generalizing s with
  | nil => exact ⟨fun _ => False, .refl _ _, records, rfl, rfl, fun e => by simp [State.timeoutWhile],
      fun _ => ⟨[], (List.append_nil _).symm⟩⟩
  | cons r rest ih =>
    rw [List.length_cons]
    cases due : s.transitDue r with
    | false =>
      rw [State.timeoutWhile_waits records due, List.dropWhile_cons_of_neg (Bool.eq_false_iff.mp due)]
      exact ⟨fun _ => False, .refl _ _, records, rfl, rfl, fun e => by simp, fun _ => ⟨[], (List.append_nil _).symm⟩⟩
    | true =>
      have first := s.missing_removal r
      rw [records, List.erase_cons_head] at first
      obtain ⟨gone, others⟩ := ih (s.missing r) first.transit
      rw [State.timeoutWhile_takes records due, List.dropWhile_cons_of_pos due]
      rw [s.missing_transitDue, first.belt] at others
      exact ⟨_, first.trans others⟩

theorem State.transitDue_iff (s : State) (r : StripRec) : s.transitDue r = true ↔ ∃ g, r.grantPos = some g ∧
    (s.track.position - (g + BitVec.ofNat 24 s.merge.transitMax)).toNat < 8388608 := by
  rw [State.transitDue, Option.any_eq_true]
  exact exists_congr fun g => and_congr_right fun _ => decide_eq_true_iff

/-- Settles O40. -/
theorem transitRecordsTimeOut : Obligations.TransitRecordsTimeOut := by
  intro s due isDue
  obtain rfl : s.transitDue = due := funext fun r => Bool.eq_iff_iff.mpr ((s.transitDue_iff r).trans (isDue r).symm)
  obtain ⟨gone, removal⟩ := s.testTransit_removal
  exact ⟨⟨_, rfl, removal.evolves.frame, removal.transit, removal.belt, removal.queues, removal.channels⟩,
    congrArg Host.Outcome.next s.timeoutWhile_eq⟩

/-! ## The entry eye -/

/-- R66: a phantom at the entry eye. -/
theorem State.phantomEye_eq (s : State) :
    s.phantomEye = (s.lineFault .phantomEye 0 0 0).setHolds { s.holds with phantom := true } := by
  unfold State.phantomEye
  dsimp only
  rw [(State.lineFault_evolves ..).frame.holds]

theorem State.objectStarts_phantom {s : State} (empty : s.track.transit = []) : s.objectStarts =
    (State.lineFault { s with gauge.eye := .covered, gauge.objectStart := s.track.position, gauge.untracked := true }
      .phantomEye 0 0 0).setHolds { s.holds with phantom := true } := by
  rw [State.objectStarts, empty]
  exact State.phantomEye_eq _

theorem State.objectStarts_strip {s : State} {r : StripRec} {rest : List StripRec} (oldest : s.track.transit = r :: rest) :
    s.objectStarts = State.traceEntry
      { s with
        gauge.eye := .covered
        gauge.objectStart := s.track.position
        gauge.untracked := false
        track.transit := rest
        track.belt := s.track.belt ++ [.strip { r with state := .measuring, lead := some s.track.position }] }
      r.traced .eyeLead 0 0 := by
  rw [State.objectStarts, oldest]
  rfl

/-- Settles O41. -/
theorem entryEyeLeadEdges : Obligations.EntryEyeLeadEdges := by
  intro s
  have edge : exec .entryEyeLeadEdge s = .next s.leadEdge := rfl
  rw [edge]
  refine ⟨fun eye => ?_, fun eye => ?_, fun eye empty t u covered raised => ?_, fun eye r rest oldest => ?_⟩
  · rw [State.leadEdge, eye]
  · rw [State.leadEdge, eye]
  · rw [State.leadEdge, eye, raised, covered]
    exact congrArg Host.Outcome.next (State.objectStarts_phantom empty)
  · rw [State.leadEdge, eye]
    exact congrArg Host.Outcome.next (State.objectStarts_strip oldest)

/-! ## Measurements -/

theorem State.measuring_none {s : State} (none_ : ∀ r ∈ s.beltStrips, r.state ≠ .measuring) : s.measuring = none :=
  List.find?_eq_none.mpr fun r inBelt => by simpa using none_ r inBelt

/-- The clear eye and a trace entry do not meet. -/
theorem State.traceEntry_eye (s : State) (traced : Bool) (kind : TraceKind) (d k : Nat) :
    State.traceEntry { s with gauge.eye := .clear } traced kind d k =
      { s.traceEntry traced kind d k with gauge.eye := .clear } := by
  unfold State.traceEntry
  split <;> rfl

theorem State.travel_eq {s : State} {r : StripRec} {lead : Pos} (led : r.lead = some lead) :
    s.travel r = (s.track.position - lead).toNat := by
  rw [State.travel, led]
  rfl

theorem State.objectEnds_phantom {s : State} (none_ : s.measuring = none) (tracked : s.gauge.untracked = false) :
    s.objectEnds = (State.lineFault { s with gauge.eye := .clear } .phantomEye 0 0 0).setHolds
      { s.holds with phantom := true } := by
  rw [State.objectEnds, none_]
  exact (if_neg (Bool.eq_false_iff.mp tracked)).trans (State.phantomEye_eq _)

theorem State.objectEnds_untracked {s : State} (none_ : s.measuring = none) (untracked : s.gauge.untracked = true) :
    s.objectEnds = { s with gauge.eye := .clear, gauge.untracked := false } := by
  rw [State.objectEnds, none_]
  exact if_pos untracked

/-- R67, R68: the object's end measures the strip. -/
theorem State.objectEnds_measures {s : State} {r : StripRec} (found : s.measuring = some r) : s.objectEnds =
    if s.travel r < s.gauge.minStrip then
      State.planOutOfRange { s.traceEntry r.traced .eyeTrail 0 0 with gauge.eye := .clear } r (s.travel r) false
    else if s.gauge.maxStrip < s.travel r then
      State.planOutOfRange { s.traceEntry r.traced .eyeTrail 0 0 with gauge.eye := .clear } r (s.travel r) true
    else State.measured { s.traceEntry r.traced .eyeTrail 0 0 with gauge.eye := .clear } r (s.travel r) := by
  rw [State.objectEnds, found, ← State.traceEntry_eye]
  rfl

theorem State.trailEdge_ends {s : State} (eye : s.gauge.eye = .covered) (moved : s.track.position ≠ s.gauge.objectStart) :
    s.trailEdge = s.objectEnds := by
  rw [State.trailEdge, eye]
  exact if_neg moved

theorem State.trailEdge_other {s : State} (eye : s.gauge.eye ≠ .covered) : s.trailEdge = s := by
  unfold State.trailEdge
  cases stands : s.gauge.eye with
  | covered => exact absurd stands eye
  | clear => rfl
  | trailHeld => rfl

theorem State.testCutOff_none {s : State} (none_ : s.measuring = none) : s.testCutOff = s := by
  rw [State.testCutOff, State.cutOffDue, none_]
  rfl

theorem State.testCutOff_within {s : State} {r : StripRec} (found : s.measuring = some r)
    (within : s.travel r ≤ s.gauge.maxStrip) : s.testCutOff = s := by
  rw [State.testCutOff, State.cutOffDue, found, Option.filter_some, if_neg (by simpa using within)]

theorem State.testCutOff_over {s : State} {r : StripRec} (found : s.measuring = some r)
    (above : s.gauge.maxStrip < s.travel r) : s.testCutOff =
      { (s.traceEntry r.traced .eyeTrail 0 0).planOutOfRange r (s.travel r) true with gauge.untracked := true } := by
  rw [State.testCutOff, State.cutOffDue, found, Option.filter_some, if_pos (by simpa using above)]
  rfl

/-- Settles O42. -/
theorem entryEyeTrailEdgesMeasure : Obligations.EntryEyeTrailEdgesMeasure := by
  intro s
  have edge : exec .entryEyeTrailEdge s = .next s.trailEdge := rfl
  have cutOff : exec .overLengthCutOff s = .next s.testCutOff := rfl
  rw [edge, cutOff]
  refine ⟨fun eye => by rw [State.trailEdge_other eye], fun eye still => ?_, fun eye moved none_ => ⟨fun untracked => ?_,
    fun tracked u raised => ?_⟩, fun none_ => by rw [State.testCutOff_none (State.measuring_none none_)],
    fun r lead len found led measured noted isNoted rejected isRejected => ?_⟩
  · rw [State.trailEdge, eye]
    exact congrArg Host.Outcome.next (if_pos still)
  · rw [State.trailEdge_ends eye moved, State.objectEnds_untracked (State.measuring_none none_) untracked]
  · rw [State.trailEdge_ends eye moved, raised, State.objectEnds_phantom (State.measuring_none none_) tracked]
  · rw [← State.travel_eq led] at measured
    have short : ∀ u, rejected u 0 = u.planOutOfRange r len false := fun u => isRejected u 0
    have long : ∀ u, rejected u 1 = u.planOutOfRange r len true := fun u => isRejected u 1
    refine ⟨fun eye moved => ?_, fun within => ?_, fun above => ?_⟩
    · rw [State.trailEdge_ends eye moved, State.objectEnds_measures found, short, long, isNoted, ← measured]
      rfl
    · rw [State.testCutOff_within found (measured ▸ within)]
    · rw [State.testCutOff_over found (measured ▸ above), long, isNoted, ← measured]

end Sys2Proof.Machine

/-! The grade map, and the commands of the grading mode and the sample interval. -/

namespace Sys2Proof.Machine

/-! ## MAP_WRITE -/

theorem mapStart_pointer {pr fc : Byte} (profile : pr.toNat < 8) (face : fc.toNat < 16) :
    ∃ at' : Fin 128, mapStart [pr, fc] = .pointer at' ∧ at'.val = 16 * pr.toNat + fc.toNat :=
  ⟨_, dif_pos ⟨profile, face⟩, rfl⟩

theorem mapStart_failed (pr fc : Byte) : mapStart [pr, fc] = .failed ↔ 8 ≤ pr.toNat ∨ 16 ≤ fc.toNat := by
  rw [mapStart]
  split
  case isTrue within => exact ⟨nofun, fun outside => absurd outside (by omega)⟩
  case isFalse outside => exact ⟨fun _ => by omega, fun _ => rfl⟩

/-- R74: the two bytes of MAP_WRITE's start group. -/
theorem execMapWrite_starts {p : PortId} {s : State} (ready : s.ready p .mapWrite) (pr fc : Byte) :
    exec (.mapWrite p (.bytes [pr, fc])) s = .next (s.setPhase p 0x20 (.incremental
      (Incremental.takeHeader ⟨.awaited, [pr], false, none⟩ (mapStart [pr, fc])))) := by
  refine congrArg Host.Outcome.next ((groupedStep_starts (g := mapGrouped) rfl ready [pr, fc]).trans ?_)
  show groupedByte mapGrouped p (groupedByte mapGrouped p _ pr) fc = _
  have first : groupedByte mapGrouped p (s.setPhase p 0x20 (.incremental ⟨.awaited, [], false, none⟩)) pr =
      s.setPhase p 0x20 (.incremental ⟨.awaited, [pr], false, none⟩) :=
    (groupedByte_header (g := mapGrouped) (State.setPhase_frame ..) rfl pr).trans (State.setPhase_setPhase ..)
  refine (congrArg (groupedByte mapGrouped p · fc) first).trans ?_
  exact (groupedByte_header (g := mapGrouped) (State.setPhase_frame ..) rfl fc).trans (State.setPhase_setPhase ..)

theorem Edition.eq_other {e inactive : Edition} (other : inactive ≠ e) : inactive = e.other := by
  cases e <;> cases inactive <;> first | rfl | exact absurd rfl other

theorem Grade.ofCode_eq_none {b : Byte} (above : 10 ≤ b.toNat) : Grade.ofCode b = none := by
  rw [Grade.ofCode, dif_neg (by omega), if_neg (by omega), if_neg (by omega)]

theorem Grade.ofCode_eq_some {b : Byte} {g : Grade} (code : b.toNat = g.code) : Grade.ofCode b = some g := by
  unfold Grade.ofCode
  cases g with
  | commercial k =>
    have below : b.toNat < 8 := by rw [code]; exact k.isLt
    rw [dif_pos below]
    exact congrArg (fun x => some (Grade.commercial x)) (Fin.ext code)
  | reject => rw [dif_neg (by rw [code]; decide), if_pos (show b.toNat = 8 from code)]
  | regrade => rw [dif_neg (by rw [code]; decide), if_neg (by rw [code]; decide), if_pos (show b.toNat = 9 from code)]

theorem Grading.edition_write (g : Grading) (e : Edition) (i : Fin 128) (v : Grade) :
    (g.write e i v).edition e = (g.edition e).set i.val v i.isLt := by
  cases e <;> rfl

theorem Grading.edition_write_other {g : Grading} {e d : Edition} (other : d ≠ e) (i : Fin 128) (v : Grade) :
    (g.write e i v).edition d = g.edition d := by
  cases e <;> cases d <;> first | rfl | exact absurd rfl other

theorem Grading.write_active (g : Grading) (e : Edition) (i : Fin 128) (v : Grade) : (g.write e i v).active = g.active := by
  cases e <;> rfl

theorem Grading.write_mode (g : Grading) (e : Edition) (i : Fin 128) (v : Grade) : (g.write e i v).mode = g.mode := by
  cases e <;> rfl

/-- R76: the first grade byte of a frame finds whether the inactive edition is in use. -/
theorem State.mapBusy_true {s : State} {i : Incremental}
    (busy : i.busy = some true ∨ (i.busy = none ∧ 0 < s.referenceCount s.grading.active.other)) : s.mapBusy i = true := by
  rcases busy with known | ⟨first, used⟩
  · rw [State.mapBusy, known]; rfl
  · rw [State.mapBusy, first]; exact decide_eq_true used

theorem State.mapBusy_false {s : State} {i : Incremental}
    (free : i.busy = some false ∨ (i.busy = none ∧ s.referenceCount s.grading.active.other = 0)) :
    s.mapBusy i = false := by
  rcases free with known | ⟨first, unused⟩
  · rw [State.mapBusy, known]; rfl
  · rw [State.mapBusy, first]; exact decide_eq_false (by omega)

theorem mapApply_busy {s : State} {i : Incremental} (busy : s.mapBusy i = true) (b : Byte) :
    mapApply i [b] s = (s, { i with busy := some true }) := by
  rw [mapApply, busy]
  rfl

theorem mapApply_failed {i : Incremental} (failed : i.header = .failed) (b : Byte) (s : State) :
    mapApply i [b] s = (s, { i with busy := some (s.mapBusy i) }) := by
  simp [mapApply, gradeByte, failed]

theorem mapApply_writes {s : State} {i : Incremental} {at' : Fin 128} (free : s.mapBusy i = false)
    (header : i.header = .pointer at') (b : Byte) :
    mapApply i [b] s = writeGrade { i with busy := some false } at' b s := by
  simp [mapApply, gradeByte, free, header]

section
variable {p : PortId} {s : State} {i : Incremental} (frame : (s.port p).frame = some ⟨0x20, .incremental i⟩)
  (empty : i.buf = []) (started : i.header ≠ .awaited)
include frame empty started

theorem execMapWrite_byte (b : Byte) : exec (.mapWrite p (.bytes [b])) s = exec (.mapWriteGradeByte p b) s :=
  congrArg Host.Outcome.next (groupStep_awaiting (g := mapGrouped) frame started empty [b]).symm

/-- R75, R76: a grade byte. -/
theorem execMapWriteGradeByte_eq (b : Byte) : exec (.mapWriteGradeByte p b) s =
    .next ((mapApply i [b] s).1.setPhase p 0x20 (.incremental (mapApply i [b] s).2)) :=
  congrArg Host.Outcome.next ((groupStep_awaiting (g := mapGrouped) frame started empty [b]).trans
    (groupedStep_one (g := mapGrouped) frame started empty rfl b))

end

/-- R75: a grade written at the pointer, and the frame after it. -/
theorem writeGrade_some {b : Byte} {g : Grade} (named : Grade.ofCode b = some g) (i : Incremental) (at' : Fin 128)
    (s : State) : writeGrade i at' b s =
      ({ s with grading := s.grading.write s.grading.active.other at' g }, { i with header := .pointer (at' + 1) }) := by
  rw [writeGrade, named]
  rfl

theorem writeGrade_none {b : Byte} (unnamed : Grade.ofCode b = none) (i : Incremental) (at' : Fin 128) (s : State) :
    writeGrade i at' b s = (s, { i with header := .pointer (at' + 1), bad := true }) := by
  rw [writeGrade, unnamed]
  rfl

/-- Settles O43. -/
theorem theMapIsWritten : Obligations.TheMapIsWritten := by
  intro p s
  refine ⟨fun ready pr fc => ⟨_, execMapWrite_starts ready pr fc, rfl, rfl, ?_, mapStart_failed pr fc,
    fun profile face => mapStart_pointer profile face⟩, fun i b frame empty => ⟨fun started =>
      execMapWrite_byte frame empty started b, fun failed => ?_, fun at' inactive header other => ?_⟩⟩
  · show (mapStart [pr, fc] == .failed) = true ↔ _
    rw [beq_iff_eq, mapStart_failed]
  · refine ⟨{ i with busy := some (s.mapBusy i) }, rfl, failed, ?_⟩
    rw [execMapWriteGradeByte_eq frame empty (by rw [failed]; nofun), mapApply_failed failed]
  · obtain rfl := Edition.eq_other other
    have byte := execMapWriteGradeByte_eq frame empty (by rw [header]; nofun) b
    refine ⟨fun busy => ?_, fun free => ?_⟩
    · rw [byte, mapApply_busy (State.mapBusy_true busy)]
    · rw [mapApply_writes (State.mapBusy_false free) header] at byte
      refine ⟨fun above => ?_, fun g code => ?_⟩
      · rw [byte, writeGrade_none (Grade.ofCode_eq_none above)]
      · rw [writeGrade_some (Grade.ofCode_eq_some code)] at byte
        have written : s.unchangedBut [.grading] { s with grading := s.grading.write s.grading.active.other at' g } :=
          (State.Evolves.of_fields (bs := [.grading])).frame
        exact ⟨_, byte, written.comp (State.setPhase_unchangedBut ..), rfl, Grading.edition_write ..,
          Grading.edition_write_other other.symm .., Grading.write_active .., Grading.write_mode ..⟩

/-! ## MAP_COMMIT, GRADE_MODE and SAMPLE_SET -/

/-- R80: GRADE_MODE by its byte. -/
theorem takeGradeMode_eq (b : Byte) (s : State) : takeGradeMode [b] s =
    if b = 0 then ({ s with grading.mode := .scanner }, .ok)
    else if b = 1 then ({ s with grading.mode := .manual }, .ok) else (s, .badField) := by
  simp only [← BitVec.toNat_inj (x := b), takeGradeMode, GradeMode.ofCode]
  generalize b.toNat = n
  match n with
  | 0 => rfl
  | 1 => rfl
  | n + 2 => rfl

theorem takeSampleSet_eq (hi lo : Byte) (s : State) : takeSampleSet [hi, lo] s =
    if 4096 < 256 * hi.toNat + lo.toNat then (s, .badField)
    else ({ s with audit.interval := 256 * hi.toNat + lo.toNat, audit.counter := 0 }, .ok) := by
  rw [takeSampleSet, word16]
  by_cases above : 4096 < 256 * hi.toNat + lo.toNat
  · rw [if_neg (by omega), if_pos above]
  · rw [if_pos (by omega), if_neg above]

/-- Settles O44. -/
theorem mapCommitGradeModeAndSampleSet : Obligations.MapCommitGradeModeAndSampleSet := by
  refine fun p s => ⟨fun ready e other => ?_, fun ready b => ?_, fun ready hi lo => ?_⟩
  · obtain rfl := Edition.eq_other other
    exact exec_taken (c := .mapCommit) ready rfl rfl rfl
  · have rule : Cmd.rule .gradeMode [b] s = _ := takeGradeMode_eq b s
    refine (exec_rule ready rfl rfl rule).trans (congrArg Host.Outcome.next ?_)
    rw [next_setResult_ite, next_setResult_ite]
    rfl
  · have rule : Cmd.rule .sampleSet [hi, lo] s = _ := takeSampleSet_eq hi lo s
    refine (exec_rule ready rfl rfl rule).trans (congrArg Host.Outcome.next ?_)
    rw [next_setResult_ite]
    rfl

end Sys2Proof.Machine

/-! Verdicts and grade entries, and the deadline. -/

namespace Sys2Proof.Machine

/-! ## The parameters of a grading command -/

/-- Table 10-7: a segment place is five bytes. -/
def placeAt (bs : List Byte) (j : Nat) : Segment :=
  ⟨256 * (bs.getD (5 * j) 0).toNat + (bs.getD (5 * j + 1) 0).toNat,
    256 * (bs.getD (5 * j + 2) 0).toNat + (bs.getD (5 * j + 3) 0).toNat, (bs.getD (5 * j + 4) 0).toNat⟩

theorem segmentPlaces_eq (n : Nat) (bs : List Byte) (length : bs.length = 5 * n) :
    segmentPlaces bs = (List.range n).map (placeAt bs) := by
  induction n generalizing bs with
  | zero =>
    obtain rfl := List.eq_nil_of_length_eq_zero length
    rfl
  | succ n ih =>
    match bs, length with
    | s1 :: s0 :: e1 :: e0 :: f :: rest, length =>
      rw [segmentPlaces, ih rest (by simp only [List.length_cons] at length; omega), List.range_succ_eq_map,
        List.map_cons, List.map_map]
      rfl

/-- R81: thirty bytes make a grading command. -/
theorem gradingCommand_some {bs : List Byte} (length : bs.length = 30) : ∃ c, gradingCommand bs = some c ∧
    c.number = BitVec.ofNat 16 (256 * (bs.getD 0 0).toNat + (bs.getD 1 0).toNat) ∧
    c.width = (if (bs.getD 2 0).getLsbD 0 then some (256 * (bs.getD 3 0).toNat + (bs.getD 4 0).toNat) else none) ∧
    c.thickness = (if (bs.getD 2 0).getLsbD 1 then some (256 * (bs.getD 5 0).toNat + (bs.getD 6 0).toNat) else none) ∧
    c.moisture = (if (bs.getD 2 0).getLsbD 2 then some (256 * (bs.getD 7 0).toNat + (bs.getD 8 0).toNat) else none) ∧
    c.count = (bs.getD 9 0).toNat ∧
    c.places = (List.range 4).map fun j => ⟨256 * (bs.getD (10 + 5 * j) 0).toNat + (bs.getD (11 + 5 * j) 0).toNat,
      256 * (bs.getD (12 + 5 * j) 0).toNat + (bs.getD (13 + 5 * j) 0).toNat, (bs.getD (14 + 5 * j) 0).toNat⟩ := by
  match bs, length with
  | n1 :: n0 :: fl :: w1 :: w0 :: t1 :: t0 :: m1 :: m0 :: c :: places, length =>
    exact ⟨_, rfl, rfl, rfl, rfl, rfl, rfl,
      segmentPlaces_eq 4 places (by simp only [List.length_cons] at length; omega)⟩

/-! ## The tests in their order -/

theorem examine_mode {source : PlanSource} {s : State} (barred : admits s.grading.mode source = false)
    (c : Grading.Command) : examine source c s = (s, .mode) := by
  rw [examine, barred]
  rfl

section
variable {source : PlanSource} {s : State} (admitted : admits s.grading.mode source = true) {c : Grading.Command}
include admitted

theorem examine_zero (zero : c.number = 0) : examine source c s = (s, .badField) := by
  rw [examine, admitted]
  exact if_pos zero

variable (isNumber : c.number ≠ 0)
include isNumber

theorem examine_refused {r : Result} (refused : s.lookup c.number = .refused r) : examine source c s = (s, r) := by
  rw [examine, admitted, refused]
  exact if_neg isNumber

theorem examine_waiting {r : StripRec} (waiting : s.lookup c.number = .waiting r) : examine source c s =
    if planPasses (r.length.getD 0) s.grading.segMin c then (s.planStrip c source r, .ok) else (s, .badPlan) := by
  rw [examine, admitted, waiting]
  exact if_neg isNumber

end

theorem State.lookup_strip {s : State} {n : StripNum} {r : StripRec} (found : s.strip n = some r) :
    s.lookup n = lookupStrip r := by
  rw [State.lookup, found]

theorem State.lookup_piece {s : State} {n : StripNum} {q : PieceRec} (none_ : s.strip n = none)
    (found : (s.pieces.find? fun x => x.number == n) = some q) : s.lookup n = .refused (sourceResult q.source) := by
  rw [State.lookup, none_, found]

theorem State.lookup_absent {s : State} {n : StripNum} (absent : s.carried n = false) :
    s.lookup n = .refused .notFound := by
  have none_ : (s.pieces.find? fun x => x.number == n) = none := by
    rw [State.carried, Bool.or_eq_false_iff] at absent
    exact List.find?_eq_none.mpr fun q inTrack => by simpa using List.any_eq_false.mp absent.2 q inTrack
  rw [State.lookup, State.strip_eq_none absent, none_]

theorem lookupStrip_waiting {r : StripRec} (waits : r.state = .awaitGrade) : lookupStrip r = .waiting r := by
  rw [lookupStrip, waits]

theorem lookupStrip_notYet {r : StripRec} (noWait : r.state ≠ .awaitGrade) (noPlan : r.state ≠ .planned) :
    lookupStrip r = .refused .notYet := by
  unfold lookupStrip
  cases stands : r.state with
  | awaitGrade => exact absurd stands noWait
  | planned => exact absurd stands noPlan
  | inMoulder | atExit | transit | measuring => rfl

theorem sourceResult_eq (source : PlanSource) : sourceResult source = if source = .default then .tooLate else .already := by
  cases source <;> rfl

theorem lookupStrip_planned {r : StripRec} {plan : Plan} (planned : r.state = .planned) (has : r.plan = some plan) :
    lookupStrip r = .refused (if plan.source = .default then .tooLate else .already) := by
  rw [lookupStrip, planned, has, ← sourceResult_eq]
  rfl

/-! ## The plan check -/

theorem ascending_iff (xs : List Segment) : ascending xs = true ↔
    ∀ j g h, xs[j]? = some g → xs[j + 1]? = some h → g.stop ≤ h.start := by
  induction xs with
  | nil => exact ⟨fun _ => nofun, fun _ => rfl⟩
  | cons g rest ih =>
    cases rest with
    | nil => exact ⟨fun _ => nofun, fun _ => rfl⟩
    | cons h rest =>
      rw [ascending, Bool.and_eq_true, decide_eq_true_eq, ih]
      constructor
      · rintro ⟨first, others⟩ j x y at_ next
        cases j with
        | zero =>
          obtain rfl := Option.some.inj at_
          obtain rfl := Option.some.inj next
          exact first
        | succ j => exact others j x y at_ next
      · exact fun all => ⟨all 0 g h rfl rfl, fun j x y at_ next => all (j + 1) x y at_ next⟩

theorem segmentPasses_iff (len segMin : Nat) (g : Segment) : segmentPasses len segMin g = true ↔
    g.faceClass ≤ 15 ∧ g.start < g.stop ∧ g.stop ≤ len ∧ segMin ≤ g.stop - g.start := by
  simp only [segmentPasses, Bool.and_eq_true, decide_eq_true_eq, and_assoc]

theorem planPasses_iff (len segMin : Nat) (c : Grading.Command) : planPasses len segMin c = true ↔
    1 ≤ c.count ∧ c.count ≤ 4 ∧
      (∀ g ∈ c.places.take c.count, g.faceClass ≤ 15 ∧ g.start < g.stop ∧ g.stop ≤ len ∧ segMin ≤ g.stop - g.start) ∧
      ∀ j g h, (c.places.take c.count)[j]? = some g → (c.places.take c.count)[j + 1]? = some h → g.stop ≤ h.start := by
  rw [planPasses, Grading.Command.used]
  simp only [Bool.and_eq_true, decide_eq_true_eq, List.all_eq_true, segmentPasses_iff, ascending_iff, and_assoc]

/-- R86: the plan is written, with the code of its source in the trace. -/
theorem State.planStrip_eq (s : State) (c : Grading.Command) {source : PlanSource}
    (given : source = .scanner ∨ source = .manual) (r : StripRec) : s.planStrip c source r =
      (s.modBeltStrip r.number fun x =>
        { x with
          state := .planned
          width := c.width
          thickness := c.thickness
          moisture := c.moisture
          plan := some ⟨c.places.take c.count, source,
            if c.width.any fun m => m + s.grading.widthTol < x.widthNominal ||
                x.widthNominal + s.grading.widthTol < m then some ⟨.reject, .width⟩
            else if c.thickness.any fun m => m + s.grading.thickTol < x.thicknessNominal ||
                x.thicknessNominal + s.grading.thickTol < m then some ⟨.reject, .thickness⟩
            else if c.moisture.any fun m => m < s.grading.moistMin || s.grading.moistMax < m then
              some ⟨.regrade, .moisture⟩
            else none⟩ }).traceEntry r.traced .planned (if source = .manual then 1 else 0) 0 := by
  rcases given with rfl | rfl <;> rfl

/-- R80: the mode admits its own source and bars the other. -/
theorem admits_of_same {m : GradeMode} {source : PlanSource}
    (same : (m = .scanner ∧ source = .scanner) ∨ (m = .manual ∧ source = .manual)) : admits m source = true := by
  rcases same with ⟨rfl, rfl⟩ | ⟨rfl, rfl⟩ <;> rfl

theorem admits_of_other {m : GradeMode} {source : PlanSource}
    (other : (m = .scanner ∧ source = .manual) ∨ (m = .manual ∧ source = .scanner)) : admits m source = false := by
  rcases other with ⟨rfl, rfl⟩ | ⟨rfl, rfl⟩ <;> rfl

/-- Settles O45. -/
theorem verdictsAndGradeEntries : Obligations.VerdictsAndGradeEntries := by
  intro p s cmd source bs isGrading ready length
  obtain ⟨c, command, number, width, thickness, moisture, count, places⟩ := gradingCommand_some length
  refine ⟨c, number, width, thickness, moisture, count, places, fun answers isAnswer => ?_⟩
  have takes : ∀ x, examine source c s = x → exec (frameInstr cmd p (.ends bs)) s = .next (x.1.setResult p x.2) := by
    intro x examined
    have rule : Cmd.rule cmd bs s = x := by
      have takeGrading_eq : takeGrading source bs s = x := by rw [takeGrading, command]; exact examined
      rcases isGrading with ⟨rfl, rfl⟩ | ⟨rfl, rfl⟩ <;> exact takeGrading_eq
    rcases isGrading with ⟨rfl, rfl⟩ | ⟨rfl, rfl⟩ <;> exact exec_rule ready rfl length rule
  have refuses : ∀ r, examine source c s = (s, r) → answers r := fun r refused => (isAnswer r).mpr (takes _ refused)
  refine ⟨fun other => refuses _ (examine_mode (admits_of_other other) c), fun same => ?_⟩
  have admitted := admits_of_same same
  refine ⟨fun zero => refuses _ (examine_zero admitted zero), fun isNumber absent => ?_, fun isNumber r found => ⟨fun noWait noPlan => ?_,
    fun planned plan has => ?_⟩, fun isNumber none_ q found => ?_, fun isNumber r len found waits measured passes isPasses => ?_⟩
  · exact refuses _ (examine_refused admitted isNumber (State.lookup_absent absent))
  · exact refuses _ (examine_refused admitted isNumber ((State.lookup_strip found).trans (lookupStrip_notYet noWait noPlan)))
  · exact refuses _ (examine_refused admitted isNumber ((State.lookup_strip found).trans (lookupStrip_planned planned has)))
  · refine refuses _ (examine_refused admitted isNumber ((State.lookup_piece none_ found).trans ?_))
    rw [sourceResult_eq]
  · have examined := examine_waiting admitted isNumber ((State.lookup_strip found).trans (lookupStrip_waiting waits))
    rw [measured, Option.getD_some] at examined
    have check : planPasses len s.grading.segMin c = true ↔ passes := (planPasses_iff ..).trans isPasses.symm
    refine ⟨fun fails => refuses _ (examined.trans (if_neg fun ok => fails (check.mp ok))), fun ok => ?_⟩
    rw [takes _ (examined.trans (if_pos (check.mpr ok))), s.planStrip_eq c ?_]
    rcases isGrading with ⟨-, rfl⟩ | ⟨-, rfl⟩
    · exact .inl rfl
    · exact .inr rfl

/-! ## The deadline -/

theorem State.deadlineDue_iff (s : State) (r : StripRec) : s.deadlineDue r = true ↔ r.state = .awaitGrade ∧
    ∃ lead, r.lead = some lead ∧ lead + BitVec.ofNat 24 s.track.marks.deadline = s.track.position := by
  rw [State.deadlineDue, Bool.and_eq_true, beq_iff_eq, State.stripDue, Option.any_eq_true]
  exact and_congr_right fun _ => exists_congr fun lead => and_congr_right fun _ => beq_iff_eq

/-- R185: what an event leaves at the ports depends on them, the time and the belt position. -/
theorem State.raiseAt_ports_congr {s t : State} (ports : t.ports = s.ports) (time : t.time = s.time)
    (position : t.track.position = s.track.position) (q : PortId) (kind : EventKind) (d : Nat) (n : StripNum) (k x : Nat) :
    (t.raiseAt q kind d n k x).ports = (s.raiseAt q kind d n k x).ports := by
  unfold State.raiseAt State.modPort
  rw [ports, time, position]

theorem State.roleHolder_congr {s t : State} (ports : t.ports = s.ports) (r : Role) : t.roleHolder r = s.roleHolder r := by
  unfold State.roleHolder State.port
  rw [ports]

theorem State.raise_ports_congr {s t : State} (ports : t.ports = s.ports) (time : t.time = s.time)
    (position : t.track.position = s.track.position) (kind : EventKind) (d : Nat) (n : StripNum) (k x : Nat) :
    (t.raise kind d n k x).ports = (s.raise kind d n k x).ports := by
  rw [State.raise, State.roleHolder_congr ports]
  exact State.raiseAt_ports_congr ports time position ..

theorem State.verdictLate_absent {s : State} (none_ : ∀ q, (s.port q).role ≠ .scanner) (r : StripRec) :
    s.verdictLate r = s.raiseAt 0 .verdictLate 0 r.number 0 (laneCode r.lane) := by
  have holder : s.roleHolder .scanner = 0 := by
    rcases s.roleHolder_holds .scanner with holds | ⟨zero, -⟩
    · exact absurd holds (none_ _)
    · exact zero
  rw [State.verdictLate, State.raise, show EventKind.destination .verdictLate = .scanner from rfl, holder]
  rfl

theorem State.verdictLate_both {s : State} (lawful : s.portsLawful) {q : PortId} (notFirst : q ≠ 0)
    (scanner : (s.port q).role = .scanner) (r : StripRec) :
    s.verdictLate r = (s.raise .verdictLate 0 r.number 0 (laneCode r.lane)).raiseAt 0 .verdictLate 0 r.number 0
      (laneCode r.lane) := by
  have holder := State.eq_roleHolder lawful (r := .scanner) (by decide) scanner
  exact if_neg (holder ▸ notFirst)

/-- Settles O46. -/
theorem deadlinesPlanByDefault : Obligations.DeadlinesPlanByDefault := by
  intro n s
  have arrival : exec (.deadlineArrival n) s = .next (s.deadlineArrival n) := rfl
  rw [arrival]
  refine ⟨fun notDue => ?_, fun r lead found waits led reached => ?_⟩
  · cases found : s.beltStrip n with
    | none => rw [State.deadlineArrival, found]
    | some r =>
      rw [State.deadlineArrival, found]
      refine congrArg Host.Outcome.next (if_neg fun due => ?_)
      obtain ⟨waits, lead, led, reached⟩ := (s.deadlineDue_iff r).mp due
      rcases notDue r found with other | away
      · exact other waits
      · exact away lead led reached
  · have number : r.number = n := by simpa using List.find?_some found
    have done : s.deadlineArrival n = s.defaultStrip r := by
      rw [State.deadlineArrival, found]
      exact if_pos ((s.deadlineDue_iff r).mpr ⟨waits, lead, led, reached⟩)
    refine ⟨_, rfl, (State.deadlineArrival_evolves s n).frame, ?_⟩
    rw [done]
    unfold State.defaultStrip
    obtain ⟨u, planned⟩ : ∃ u, u = (s.modBeltStrip r.number StripRec.defaulted).traceEntry r.traced .planned
      PlanSource.default.code 0 := ⟨_, rfl⟩
    have traced : s.modBeltStrip r.number StripRec.defaulted |>.unchangedBut [.audit] u :=
      planned ▸ State.traceEntry_frame ..
    have ports : u.ports = s.ports := traced.ports
    have position : u.track.position = s.track.position := (congrArg Track.position traced.track).trans rfl
    rw [← planned]
    subst number
    refine ⟨?_, ?_, fun ⟨q, notFirst, scanner, lawful⟩ => ?_, fun none_ => ?_⟩
    · rw [(State.verdictLate_evolves ..).frame.track, traced.track]
      rfl
    · rw [(State.verdictLate_evolves ..).frame.audit, planned]
      unfold State.traceEntry
      split <;> rfl
    · have lawful' : u.portsLawful := by unfold State.portsLawful State.port; rw [ports]; exact lawful
      rw [State.verdictLate_both lawful' notFirst (by unfold State.port; rw [ports]; exact scanner)]
      exact State.raiseAt_ports_congr (State.raise_ports_congr ports traced.time position ..) traced.time position ..
    · rw [State.verdictLate_absent (s := u) (by unfold State.port; rw [ports]; exact none_)]
      exact State.raiseAt_ports_congr ports traced.time position ..

end Sys2Proof.Machine

/-! The split of a strip at the TRIM mark: its pieces, its cuts and its strokes. -/

namespace Sys2Proof.Machine

/-! ## Cut offsets -/

theorem mem_insertOnce (x y : Nat) (xs : List Nat) : y ∈ insertOnce x xs ↔ y = x ∨ y ∈ xs := by
  induction xs with
  | nil => rw [insertOnce, List.mem_singleton, List.mem_nil_iff, or_false]
  | cons z zs ih =>
    rw [insertOnce]
    split
    · exact List.mem_cons
    · split
      case isTrue same => simp [same]
      case isFalse => rw [List.mem_cons, ih, List.mem_cons]; exact or_left_comm

theorem insertOnce_rising {xs : List Nat} (rising : xs.Pairwise (· < ·)) (x : Nat) :
    (insertOnce x xs).Pairwise (· < ·) := by
  induction xs with
  | nil => exact List.pairwise_singleton ..
  | cons y ys ih =>
    obtain ⟨least, rest⟩ := List.pairwise_cons.mp rising
    rw [insertOnce]
    split
    case isTrue before =>
      refine List.pairwise_cons.mpr ⟨fun z inList => ?_, rising⟩
      rcases List.mem_cons.mp inList with rfl | later
      · exact before
      · exact before.trans (least z later)
    case isFalse notBefore =>
      split
      · exact rising
      case isFalse differs =>
        refine List.pairwise_cons.mpr ⟨fun z inList => ?_, ih rest⟩
        rcases (mem_insertOnce ..).mp inList with rfl | later
        · omega
        · exact least z later

theorem foldr_insertOnce_rising (xs : List Nat) : (xs.foldr insertOnce []).Pairwise (· < ·) := by
  induction xs with
  | nil => exact List.Pairwise.nil
  | cons x xs ih => exact insertOnce_rising ih x

theorem mem_foldr_insertOnce (y : Nat) (xs : List Nat) : y ∈ xs.foldr insertOnce [] ↔ y ∈ xs := by
  induction xs with
  | nil => rfl
  | cons x xs ih => rw [List.foldr_cons, mem_insertOnce, ih, List.mem_cons]

theorem mem_cutOffsets (len : Nat) (segments : List Segment) (x : Nat) : x ∈ cutOffsets len segments ↔
    0 < x ∧ x < len ∧ ∃ g ∈ segments, x = g.start ∨ x = g.stop := by
  rw [cutOffsets, mem_foldr_insertOnce, List.mem_filter, boundaries, List.mem_flatMap, Bool.and_eq_true,
    decide_eq_true_eq, decide_eq_true_eq]
  simp only [List.mem_cons, List.not_mem_nil, or_false]
  exact ⟨fun ⟨named, above, below⟩ => ⟨above, below, named⟩, fun ⟨above, below, named⟩ => ⟨named, above, below⟩⟩

/-- R116: the cut offsets are the only rising list of the boundaries within the strip. -/
theorem cutOffsets_unique {len : Nat} {segments : List Segment} {offsets : List Nat} (rising : offsets.Pairwise (· < ·))
    (members : ∀ x, x ∈ offsets ↔ 0 < x ∧ x < len ∧ ∃ g ∈ segments, x = g.start ∨ x = g.stop) :
    offsets = cutOffsets len segments := by
  have rises : (cutOffsets len segments).Pairwise (· < ·) := foldr_insertOnce_rising _
  have once : ∀ {xs : List Nat}, xs.Pairwise (· < ·) → xs.Nodup := fun h => h.imp Nat.ne_of_lt
  have perm : offsets.Perm (cutOffsets len segments) :=
    (List.perm_ext_iff_of_nodup (once rising) (once rises)).mpr fun x =>
      (members x).trans (mem_cutOffsets len segments x).symm
  exact perm.eq_of_pairwise (fun a b _ _ before after => absurd before (Nat.lt_asymm after)) rising rises

/-- R116: the piece that a cut names. -/
theorem cutNames_eq (segments : List Segment) (x : Nat) : cutNames segments x =
    match segments.findIdx? (fun g => decide (g.start = x)) with
    | some k => k
    | none => (segments.findIdx? fun g => decide (g.stop = x)).getD 0 := by
  show ((segments.findIdx? fun g => decide (g.start = x)).or (segments.findIdx? fun g => decide (g.stop = x))).getD 0 = _
  cases segments.findIdx? fun g => decide (g.start = x) <;> rfl

/-! ## Pieces -/

/-- R114: without an override, a piece has its grade from the map. -/
theorem State.pieceGrade_eq (s : State) (r : StripRec) (plan : Plan) (faceClass : Nat) :
    s.pieceGrade r plan faceClass = match plan.override with
      | some o => o.grade
      | none => ((s.grading.edition r.edition)[16 * r.profile + faceClass]?).getD .regrade := rfl

/-- R114, R115: a piece's reason: the override's, else its grade's, else the one that its length gives it. -/
theorem State.pieceReason_eq (s : State) (r : StripRec) (plan : Plan) (faceClass len : Nat) :
    (s.planReason r plan faceClass).or (s.testReason len) = match plan.override with
      | some o => some o.reason
      | none => if s.pieceGrade r plan faceClass = .reject then some .rejectGrade
        else if s.pieceGrade r plan faceClass = .regrade then some .regradeGrade
        else if s.isShort len then some .short else if s.isOverLong len then some .endFault else none := by
  unfold State.planReason
  cases plan.override with
  | some o => rfl
  | none =>
    dsimp only
    cases s.pieceGrade r plan faceClass with
    | commercial g => rfl
    | reject => rfl
    | regrade => rfl

theorem State.isOverLong_iff (s : State) (len : Nat) : s.isOverLong len = true ↔
    s.isShort len = false ∧ s.track.marks.sort ≤ s.track.marks.endmatch + len := by
  rw [State.isOverLong, Bool.and_eq_true, Bool.not_eq_true', decide_eq_true_eq]

/-! ## Strokes -/

section
variable {s : State} {r : StripRec} {plan : Plan} {lead : Pos} {len : Nat} (led : r.lead = some lead)
  (measured : r.length = some len)
include led measured

theorem State.cutEntries_eq {offsets : List Nat} {named : Nat → Nat} (rising : offsets.Pairwise (· < ·))
    (members : ∀ x, x ∈ offsets ↔ 0 < x ∧ x < len ∧ ∃ g ∈ plan.segments, x = g.start ∨ x = g.stop)
    (names : ∀ x, named x = cutNames plan.segments x) : s.cutEntries r plan =
      offsets.map fun x => ⟨lead + BitVec.ofNat 24 (s.track.marks.trim + x), 0, r.number, named x, .cut⟩ := by
  obtain rfl : named = cutNames plan.segments := funext names
  rw [cutOffsets_unique rising members, State.cutEntries, led, measured]
  rfl

end

/-- R117: the end-match strokes of a piece, unless it is short or over-long. -/
theorem State.endMatchEntries_eq (s : State) (r : StripRec) (plan : Plan) (k : Nat) (g : Segment) :
    s.endMatchEntries (s.pieceOf r plan k g) =
      if s.isShort g.len = true ∨ s.isOverLong g.len = true then []
      else [⟨(s.pieceOf r plan k g).lead + BitVec.ofNat 24 s.track.marks.endmatch, 1, r.number, k, .tongue⟩,
        ⟨(s.pieceOf r plan k g).lead + BitVec.ofNat 24 (s.track.marks.endmatch + (g.stop - g.start)), 2, r.number, k,
          .groove⟩] := by
  have matched : s.isEndMatched g.len = true ↔ ¬ (s.isShort g.len = true ∨ s.isOverLong g.len = true) := by
    rw [State.isEndMatched, Bool.and_eq_true, Bool.not_eq_true', Bool.not_eq_true', not_or, Bool.not_eq_true,
      Bool.not_eq_true]
  unfold State.endMatchEntries
  exact (if_congr matched rfl rfl).trans (ite_not ..)

theorem map_mapIdx {α β γ : Type} (g : β → γ) (f : Nat → α → β) (xs : List α) :
    (xs.mapIdx f).map g = xs.mapIdx fun k x => g (f k x) := by
  refine List.ext_getElem? fun i => ?_
  rw [List.getElem?_map, List.getElem?_mapIdx, List.getElem?_mapIdx, Option.map_map]
  rfl

theorem State.endMatches_eq (s : State) (r : StripRec) (plan : Plan) : (s.piecesOf r plan).flatMap s.endMatchEntries =
    (plan.segments.mapIdx fun k g => if s.isShort g.len = true ∨ s.isOverLong g.len = true then []
      else [⟨(s.pieceOf r plan k g).lead + BitVec.ofNat 24 s.track.marks.endmatch, 1, r.number, k, .tongue⟩,
        ⟨(s.pieceOf r plan k g).lead + BitVec.ofNat 24 (s.track.marks.endmatch + (g.stop - g.start)), 2, r.number, k,
          .groove⟩]).flatten := by
  rw [State.piecesOf, List.flatMap_def, map_mapIdx]
  refine congrArg (fun f => (plan.segments.mapIdx f).flatten) (funext fun k => funext fun g => ?_)
  exact s.endMatchEntries_eq r plan k g

/-! ## The arrival -/

theorem State.trimDue_iff (s : State) (r : StripRec) : s.trimDue r = true ↔ r.state = .planned ∧
    ∃ lead, r.lead = some lead ∧ lead + BitVec.ofNat 24 s.track.marks.trim = s.track.position := by
  rw [State.trimDue, Bool.and_eq_true, beq_iff_eq, State.stripDue, Option.any_eq_true]
  exact and_congr_right fun _ => exists_congr fun lead => and_congr_right fun _ => beq_iff_eq

theorem State.trimArrival_splits {s : State} {n : StripNum} {r : StripRec} {plan : Plan} (found : s.beltStrip n = some r)
    (planned : r.plan = some plan) (due : s.trimDue r = true) : s.trimArrival n = s.split r plan := by
  rw [State.trimArrival, found]
  dsimp only
  rw [planned]
  exact if_pos due

theorem State.trimArrival_waits {s : State} {n : StripNum}
    (notDue : ∀ r, s.beltStrip n = some r → r.plan = none ∨ s.trimDue r = false) : s.trimArrival n = s := by
  unfold State.trimArrival
  split
  case h_1 r found =>
    rcases notDue r found with none_ | away
    · rw [none_]
    · rw [away]
      split <;> rfl
  case h_2 => rfl

/-- R118: the strokes find room, and the pieces take the strip's place. -/
theorem State.split_fits {s : State} {r : StripRec} {plan : Plan}
    (room : (s.strokes r plan).length + s.fire.schedule.length ≤ 64) : s.split r plan =
      (State.replaceStrip { s with fire.schedule := s.withGroup (s.strokes r plan) } r.number
        (s.piecesOf r plan)).retest := by
  rw [State.split, State.placeGroup, if_pos room]

theorem State.split_full {s : State} {r : StripRec} {plan : Plan}
    (full : 64 < (s.strokes r plan).length + s.fire.schedule.length) : s.split r plan = (s.trimFault r plan).retest := by
  rw [State.split, State.placeGroup, if_neg (by omega)]

/-- Settles O47. -/
theorem stripsAreSplitAtTrim : Obligations.StripsAreSplitAtTrim := by
  intro n s
  have arrival : exec (.trimArrival n) s = .next (s.trimArrival n) := rfl
  rw [arrival]
  refine ⟨fun notDue => congrArg Host.Outcome.next (State.trimArrival_waits fun r found => ?_),
    fun r plan lead len found planned has led measured reached => ?_⟩
  · rcases notDue r found with other | none_ | away
    · exact .inr (Bool.eq_false_iff.mpr fun due => other ((s.trimDue_iff r).mp due).1)
    · exact .inl none_
    · refine .inr (Bool.eq_false_iff.mpr fun due => ?_)
      obtain ⟨-, lead, led, reached⟩ := (s.trimDue_iff r).mp due
      exact away lead led reached
  · intro short overLong grade piece isShort isOverLong isGrade isPiece offsets named group rising members names isGroup
    have number : r.number = n := by simpa using List.find?_some found
    subst number
    obtain rfl : short = fun g => s.isShort g.len := funext fun g => Bool.eq_iff_iff.mpr
      ((isShort g).trans decide_eq_true_iff.symm)
    obtain rfl : overLong = fun g => s.isOverLong g.len := funext fun g => Bool.eq_iff_iff.mpr
      ((isOverLong g).trans (s.isOverLong_iff g.len).symm)
    obtain rfl : grade = fun g => s.pieceGrade r plan g.faceClass := funext fun g => isGrade g
    obtain rfl : piece = s.pieceOf r plan := by
      funext k g
      rw [isPiece]
      unfold State.pieceOf State.pieceFrom
      rw [s.pieceReason_eq, led]
      rfl
    have strokes : s.strokes r plan = group := by
      rw [State.strokes, State.cutEntries_eq led measured rising members fun x => (names x).trans (cutNames_eq ..).symm,
        s.endMatches_eq, isGroup]
    rw [State.trimArrival_splits found has ((s.trimDue_iff r).mpr ⟨planned, lead, led, reached⟩)]
    refine ⟨fun room => ?_, fun full => ?_⟩
    · rw [← strokes] at room ⊢
      rw [State.split_fits room]
      rfl
    · rw [← strokes] at full
      rw [State.split_full full, State.trimFault, State.faultPiece, measured]
      rfl

end Sys2Proof.Machine

/-! Fire requests: how a channel answers, and what the outcome does to the pieces and the schedule. -/

namespace Sys2Proof.Machine

/-! ## The entry that is due -/

theorem State.entryDue_iff (s : State) (c : ChannelId) (e : FireEntry) :
    s.entryDue c e = true ↔ e.channel = c ∧ e.position = s.track.position := by
  rw [State.entryDue, Bool.and_eq_true, beq_iff_eq, beq_iff_eq]

theorem State.entryDue_false {s : State} {c : ChannelId} {e : FireEntry}
    (away : e.channel ≠ c ∨ e.position ≠ s.track.position) : ¬ s.entryDue c e = true := by
  rw [State.entryDue_iff, not_and_or]
  exact away

theorem State.fireRequest_none {s : State} {c : ChannelId}
    (none_ : ∀ e ∈ s.fire.schedule, e.channel ≠ c ∨ e.position ≠ s.track.position) : s.fireRequest c = s := by
  have noEntry : s.fire.schedule.find? (s.entryDue c) = none :=
    List.find?_eq_none.mpr fun e inSchedule => State.entryDue_false (none_ e inSchedule)
  rw [State.fireRequest, noEntry]

/-- R104: the first entry due on a channel leaves the schedule and is sent. -/
theorem State.fireRequest_first {s : State} {c : ChannelId} {before after : List FireEntry} {e : FireEntry}
    (schedule : s.fire.schedule = before ++ e :: after)
    (first : ∀ x ∈ before, x.channel ≠ c ∨ x.position ≠ s.track.position) (channel : e.channel = c)
    (position : e.position = s.track.position) :
    s.fireRequest c = State.sendRequest { s with fire.schedule := before ++ after } e := by
  have due : s.entryDue c e = true := (s.entryDue_iff c e).mpr ⟨channel, position⟩
  have notDue : ∀ x ∈ before, ¬ s.entryDue c x = true := fun x isBefore => State.entryDue_false (first x isBefore)
  have found : s.fire.schedule.find? (s.entryDue c) = some e := by
    rw [schedule, List.find?_append, List.find?_eq_none.mpr notDue, List.find?_cons_of_pos due]
    rfl
  have left : s.fire.schedule.eraseP (s.entryDue c) = before ++ after := by
    rw [schedule, List.eraseP_append_right _ notDue, List.eraseP_cons_of_pos due]
  rw [State.fireRequest, found, left]

/-! ## The answer -/

theorem Channel.answer_eq {x : Channel} {guard fired : Bool} (isFired : fired = true ↔ guard = false ∧ x.state = .idle) :
    x.answer guard = if fired then .fired else .missed guard := by
  unfold Channel.answer
  cases guard with
  | true =>
    have missed : fired = false := Bool.eq_false_iff.mpr fun hit => nomatch (isFired.mp hit).1
    rw [missed]
    rfl
  | false =>
    by_cases idle : x.state = .idle
    · rw [isFired.mpr ⟨rfl, idle⟩, if_pos idle]
      rfl
    · have missed : fired = false := Bool.eq_false_iff.mpr fun hit => idle (isFired.mp hit).2
      rw [missed, if_neg idle]
      rfl

theorem Channel.request_eq {x : Channel} {guard fired : Bool} (isFired : fired = true ↔ guard = false ∧ x.state = .idle) :
    x.request guard = if fired then { x with state := .pulsing x.current.width } else x := by
  rw [Channel.request, Channel.answer_eq isFired]
  cases fired <;> rfl

/-! ## What an outcome does to the pieces -/

/-- The track with each of its pieces changed. -/
def Track.mapPieces (t : Track) (f : PieceRec → PieceRec) : Track :=
  { t with belt := t.belt.map fun
    | .strip r => .strip r
    | .piece r => .piece (f r) }

theorem Track.mapPieces_self {t : Track} {f : PieceRec → PieceRec} (same : ∀ r, f r = r) : t.mapPieces f = t := by
  have belt : t.belt.map (fun | .strip r => .strip r | .piece r => .piece (f r)) = t.belt := by
    refine (List.map_congr_left fun x _ => ?_).trans (List.map_id _)
    cases x with
    | strip r => rfl
    | piece r => exact congrArg BeltRec.piece (same r)
  exact congrArg (fun b => { t with belt := b }) belt

theorem State.modPieces_track (s : State) (test : PieceRec → Bool) (f : PieceRec → PieceRec) :
    (s.modPieces test f).track = s.track.mapPieces fun r => if test r = true then f r else r := by
  refine congrArg (fun g => { s.track with belt := s.track.belt.map g }) (funext fun x => ?_)
  cases x with
  | strip r => rfl
  | piece r =>
    show (if test r = true then BeltRec.piece (f r) else .piece r) = .piece (if test r = true then f r else r)
    split <;> rfl

/-- R120, R122, R123: what the outcome of a stroke does to a piece. -/
def PieceRec.afterStroke (emTrim : Nat) (e : FireEntry) (fired : Bool) (r : PieceRec) : PieceRec :=
  if e.purpose = .cut ∧ fired = false ∧ r.number = e.number then { r with reason := some .trimFault }
  else if e.purpose = .tongue ∧ fired = true ∧ r.number = e.number ∧ r.index = e.index then
    { r with tongueDone := true, finalLength := if r.grooveDone then r.segLength - emTrim else r.segLength }
  else if e.purpose = .groove ∧ fired = true ∧ r.number = e.number ∧ r.index = e.index then
    { r with grooveDone := true, finalLength := if r.tongueDone then r.segLength - emTrim else r.segLength }
  else if (e.purpose = .tongue ∨ e.purpose = .groove) ∧ fired = false ∧ r.number = e.number ∧ r.index = e.index then
    { r with reason := match r.reason with | some why => some why | none => some .endFault }
  else r

/-- A change of the piece that an entry names. -/
theorem State.modPiece_track (s : State) (n : StripNum) (k : Nat) (f : PieceRec → PieceRec) :
    (s.modPiece n k f).track = s.track.mapPieces fun r => if r.number = n ∧ r.index = k then f r else r := by
  rw [State.modPiece, State.modPieces_track]
  refine congrArg s.track.mapPieces (funext fun r => if_congr ?_ rfl rfl)
  rw [Bool.and_eq_true, beq_iff_eq, beq_iff_eq]

/-- The outcome that a flag tells, at a guard level. -/
def FireOutcome.of (fired guard : Bool) : FireOutcome := if fired then .fired else .missed guard

theorem State.handOn_track (s : State) (e : FireEntry) (fired guard : Bool) :
    (s.handOn e (.of fired guard)).track = s.track.mapPieces (PieceRec.afterStroke s.cut.emTrim e fired) := by
  cases purpose : e.purpose with
  | cut =>
    cases fired with
    | true =>
      simp only [State.handOn, purpose, FireOutcome.of, if_true]
      exact (Track.mapPieces_self fun r => by simp [PieceRec.afterStroke, purpose]).symm
    | false =>
      simp only [State.handOn, purpose, FireOutcome.of, Bool.false_eq_true, if_false]
      refine (State.modPieces_track ..).trans (congrArg s.track.mapPieces (funext fun r => ?_))
      simp [PieceRec.afterStroke, purpose]
  | tongue =>
    cases fired with
    | true =>
      simp only [State.handOn, purpose, FireOutcome.of, if_true]
      refine (State.modPiece_track ..).trans (congrArg s.track.mapPieces (funext fun r => ?_))
      simp [PieceRec.afterStroke, purpose, PieceRec.settleLength]
    | false =>
      simp only [State.handOn, purpose, FireOutcome.of, Bool.false_eq_true, if_false]
      refine (State.modPiece_track ..).trans (congrArg s.track.mapPieces (funext fun r => ?_))
      cases why : r.reason <;> simp [PieceRec.afterStroke, purpose, why]
  | groove =>
    cases fired with
    | true =>
      simp only [State.handOn, purpose, FireOutcome.of, if_true]
      refine (State.modPiece_track ..).trans (congrArg s.track.mapPieces (funext fun r => ?_))
      simp [PieceRec.afterStroke, purpose, PieceRec.settleLength]
    | false =>
      simp only [State.handOn, purpose, FireOutcome.of, Bool.false_eq_true, if_false]
      refine (State.modPiece_track ..).trans (congrArg s.track.mapPieces (funext fun r => ?_))
      cases why : r.reason <;> simp [PieceRec.afterStroke, purpose, why]
  | gate =>
    have same : ∀ o, s.handOn e o = s := fun o => by cases o <;> simp [State.handOn, purpose]
    rw [same]
    exact (Track.mapPieces_self fun r => by simp [PieceRec.afterStroke, purpose]).symm

theorem State.handOn_channels (s : State) (e : FireEntry) (o : FireOutcome) :
    (s.handOn e o).fire.channels = s.fire.channels := by
  unfold State.handOn
  split <;> rfl

/-! ## What an outcome withdraws from the schedule -/

/-- R120, R123: a missed stroke withdraws another entry. -/
def State.withdraws (s : State) (e : FireEntry) (fired : Bool) (x : FireEntry) : Prop :=
  fired = false ∧ x.number = e.number ∧
    ((e.purpose = .cut ∧ (x.purpose = .tongue ∨ x.purpose = .groove) ∧ s.piece x.number x.index ≠ none) ∨
      (e.purpose = .tongue ∧ x.purpose = .groove ∧ x.index = e.index) ∨
      (e.purpose = .groove ∧ x.purpose = .tongue ∧ x.index = e.index))

theorem State.endMatchOf_iff (s : State) (n : StripNum) (x : FireEntry) : s.endMatchOf n x = true ↔
    x.number = n ∧ (x.purpose = .tongue ∨ x.purpose = .groove) ∧ s.piece x.number x.index ≠ none := by
  rw [State.endMatchOf, FireEntry.endMatch, Bool.and_eq_true, Bool.and_eq_true, Bool.or_eq_true, beq_iff_eq, beq_iff_eq,
    beq_iff_eq, Option.isSome_iff_ne_none]
  constructor
  · rintro ⟨⟨stroke, rfl⟩, there⟩
    exact ⟨rfl, stroke, there⟩
  · rintro ⟨rfl, stroke, there⟩
    exact ⟨⟨stroke, rfl⟩, there⟩

/-- A filter by the entries that are not cancelled. -/
theorem State.cancelEntries_schedule {s : State} {cancels test : FireEntry → Bool}
    (opposite : ∀ x, test x = true ↔ ¬ cancels x = true) : (s.cancelEntries cancels).fire.schedule =
      s.fire.schedule.filter test :=
  List.filter_congr fun x _ => Bool.eq_iff_iff.mpr (by rw [opposite, Bool.not_eq_true', Bool.not_eq_true])

theorem State.handOn_schedule {s : State} {e : FireEntry} {fired : Bool} (guard : Bool) {test : FireEntry → Bool}
    (stays : ∀ x, test x = true ↔ ¬ s.withdraws e fired x) :
    (s.handOn e (.of fired guard)).fire.schedule = s.fire.schedule.filter test := by
  have keeps : (∀ x, ¬ s.withdraws e fired x) → s.fire.schedule = s.fire.schedule.filter test := fun none_ =>
    (List.filter_eq_self.mpr fun x _ => (stays x).mpr (none_ x)).symm
  cases fired with
  | true =>
    have same : (s.handOn e (.of true guard)).fire.schedule = s.fire.schedule := by
      unfold State.handOn FireOutcome.of
      cases e.purpose <;> rfl
    rw [same]
    exact keeps fun x ⟨missed, _⟩ => nomatch missed
  | false =>
    simp only [FireOutcome.of, Bool.false_eq_true, if_false]
    cases purpose : e.purpose with
    | cut =>
      simp only [State.handOn, purpose]
      refine State.cancelEntries_schedule fun x => (stays x).trans (not_congr ?_)
      rw [State.endMatchOf_iff]
      simp [State.withdraws, purpose]
    | tongue =>
      simp only [State.handOn, purpose]
      refine State.cancelEntries_schedule fun x => (stays x).trans (not_congr ?_)
      simp [State.withdraws, purpose, FireEntry.names, and_left_comm]
    | groove =>
      simp only [State.handOn, purpose]
      refine State.cancelEntries_schedule fun x => (stays x).trans (not_congr ?_)
      simp [State.withdraws, purpose, FireEntry.names, and_left_comm]
    | gate =>
      simp only [State.handOn, purpose]
      exact keeps fun x ⟨_, _, withdrawn⟩ => by simp [purpose] at withdrawn

/-! ## A request from end to end -/

theorem outcomeKind_eq (purpose : Purpose) (fired guard : Bool) : outcomeKind purpose (.of fired guard) =
    match purpose with
      | .cut => if fired then .cutFired else .cutMissed
      | .tongue => if fired then .tongueFired else .tongueMissed
      | .groove => if fired then .grooveFired else .grooveMissed
      | .gate => if fired then .gateFired else .gateMissed := by
  cases purpose <;> cases fired <;> rfl

theorem missedDetail_eq (purpose : Purpose) (guard : Bool) : missedDetail purpose guard =
    (match purpose with | .cut => 0 | .tongue => 1 | .groove => 2 | .gate => 3) + (if guard then 128 else 0) := by
  cases purpose <;> cases guard <;> rfl

/-- R193: what a trace entry leaves at the audit unit depends on it, the time and the belt position. -/
theorem State.traceEntry_audit_congr {s t : State} (audit : t.audit = s.audit) (time : t.time = s.time)
    (position : t.track.position = s.track.position) (traced : Bool) (kind : TraceKind) (d k : Nat) :
    (t.traceEntry traced kind d k).audit = (s.traceEntry traced kind d k).audit := by
  unfold State.traceEntry
  split
  · show t.audit.offerEntry _ = s.audit.offerEntry _
    rw [audit, time, position]
  · exact audit

theorem State.reportMiss_ports (s : State) (e : FireEntry) (fired guard : Bool) :
    (s.reportMiss e (.of fired guard)).ports =
      if fired then s.ports else (s.raise .fireMissed (missedDetail e.purpose guard) e.number e.index e.channel.val).ports := by
  cases fired with
  | true => rfl
  | false =>
    simp only [State.reportMiss, FireOutcome.of, Bool.false_eq_true, if_false]
    unfold State.offerFault
    split <;> rfl

/-- R106: the fault of a missed stroke is captured when the record is empty. -/
theorem State.reportMiss_audit (s : State) (e : FireEntry) (fired guard : Bool) :
    (s.reportMiss e (.of fired guard)).audit =
      if fired = false ∧ s.audit.fault = none then
        { s.audit with fault := some ⟨.fireMissed, e.number, e.index, e.channel.val, s.track.position, s.time.ms⟩ }
      else s.audit := by
  cases fired with
  | true => rfl
  | false =>
    simp only [State.reportMiss, FireOutcome.of, Bool.false_eq_true, if_false, State.offerFault, State.raise_audit]
    cases s.audit.fault <;> rfl

theorem State.fire_unchangedBut (s : State) (fire : Fire) : s.unchangedBut [.fire] { s with fire := fire } :=
  ⟨fun b other => by cases b <;> first | rfl | exact absurd (by decide) other⟩

/-- Settles O48. -/
theorem fireRequestsAreAnswered : Obligations.FireRequestsAreAnswered := by
  intro c s
  have request : exec (.fireRequest c) s = .next (s.fireRequest c) := rfl
  rw [request]
  refine ⟨fun none_ => by rw [State.fireRequest_none none_], fun before after e schedule first channel position fired isFired => ?_⟩
  subst channel
  refine ⟨_, rfl, (State.fireRequest_evolves s e.channel).frame, ?_⟩
  rw [State.fireRequest_first schedule first rfl position]
  obtain ⟨sent, isSent⟩ : ∃ sent : State, sent = State.modChannel { s with fire.schedule := before ++ after } e.channel
    fun x => x.request s.guardOpen := ⟨_, rfl⟩
  obtain ⟨noted, isNoted⟩ : ∃ noted : State, noted = sent.traceEntry (sent.entryTraced e)
    (outcomeKind e.purpose (.of fired s.guardOpen)) 0 e.index := ⟨_, rfl⟩
  obtain ⟨told, isTold⟩ : ∃ told : State, told = noted.reportMiss e (.of fired s.guardOpen) := ⟨_, rfl⟩
  have done : State.sendRequest { s with fire.schedule := before ++ after } e = told.handOn e (.of fired s.guardOpen) := by
    have answered : (State.channel { s with fire.schedule := before ++ after } e.channel).answer s.guardOpen =
        .of fired s.guardOpen := Channel.answer_eq isFired
    unfold State.sendRequest State.report
    dsimp only
    rw [answered, ← isSent, ← isNoted, ← isTold]
  have sends : s.unchangedBut [.fire] sent := isSent ▸ s.fire_unchangedBut _
  have notes : sent.unchangedBut [.audit] noted := isNoted ▸ State.traceEntry_frame ..
  have tells : noted.unchangedBut [.audit, .ports] told := isTold ▸ (State.reportMiss_evolves ..).frame
  have hands : told.unchangedBut [.track, .fire] (told.handOn e (.of fired s.guardOpen)) := (State.handOn_evolves ..).frame
  have track : told.track = s.track := tells.track.trans (notes.track.trans sends.track)
  have cut : told.cut = s.cut := tells.cut.trans (notes.cut.trans sends.cut)
  have fire : told.fire = sent.fire := tells.fire.trans notes.fire
  have ports : noted.ports = s.ports := notes.ports.trans sends.ports
  have time : noted.time = s.time := notes.time.trans sends.time
  have place : noted.track.position = s.track.position := congrArg Track.position (notes.track.trans sends.track)
  rw [done]
  refine ⟨fun d => ?_, ?_, fun a isA => ?_, ?_, ?_⟩
  · have channel : (told.handOn e (.of fired s.guardOpen)).channel d = sent.channel d := by
      unfold State.channel
      rw [State.handOn_channels, fire]
    rw [channel, isSent, State.channel_modChannel]
    by_cases here : d = e.channel
    · subst here
      rw [if_pos rfl]
      refine (Channel.request_eq isFired).trans (if_congr ?_ rfl rfl)
      exact (and_iff_right rfl).symm
    · rw [if_neg here, if_neg fun both => here both.1]
      rfl
  · rw [hands.ports, isTold, State.reportMiss_ports, ports, State.raise_ports_congr ports time place]
    exact congrArg (fun detail => if fired then s.ports
      else (s.raise .fireMissed detail e.number e.index e.channel.val).ports) (missedDetail_eq e.purpose s.guardOpen)
  · have kind := outcomeKind_eq e.purpose fired s.guardOpen
    have audit : noted.audit = a := by
      rw [isNoted, isA, kind]
      refine (State.traceEntry_audit_congr sends.audit sends.time (congrArg Track.position sends.track) ..).trans ?_
      rw [State.entryTraced, State.piece, State.pieces, sends.track]
      rfl
    rw [hands.audit, isTold, State.reportMiss_audit, audit, place, time]
  · rw [State.handOn_track, track, cut]
    rfl
  · have left : told.fire.schedule = before ++ after := (congrArg Fire.schedule fire).trans (isSent ▸ rfl)
    have piece : told.piece = s.piece := by
      unfold State.piece State.pieces
      rw [track]
    rw [← left]
    refine State.handOn_schedule s.guardOpen fun x => decide_eq_true_iff.trans (not_congr ?_)
    unfold State.withdraws
    rw [piece]

end Sys2Proof.Machine

/-! The fire channels: the ends of their strokes, their timing, and the guard. -/

namespace Sys2Proof.Machine

/-! ## Ends of pulses and recoveries -/

theorem execFirePulseEnd_other {s : State} {c : ChannelId} (other : ∀ left, (s.channel c).state ≠ .pulsing left) :
    exec (.firePulseEnd c) s = .next s := by
  show execFirePulseEnd c s = .next s
  unfold execFirePulseEnd
  split
  case h_1 left stands => exact absurd stands (other left)
  case h_2 => rfl
  case h_3 => rfl

theorem execFireRecoveryEnd_other {s : State} {c : ChannelId} (other : ∀ left, (s.channel c).state ≠ .recovering left) :
    exec (.fireRecoveryEnd c) s = .next s := by
  show execFireRecoveryEnd c s = .next s
  unfold execFireRecoveryEnd
  split
  case h_1 left stands => exact absurd stands (other left)
  case h_2 => rfl
  case h_3 => rfl

theorem execFirePulseEnd_pulsing {s t : State} {c : ChannelId} {left : Nat} (stands : (s.channel c).state = .pulsing left)
    (passed : t = s.elapse left) : exec (.firePulseEnd c) s =
      .next (if (t.channel c).state = .pulsing 0 then t.modChannel c Channel.endPulse else t) := by
  subst passed
  show execFirePulseEnd c s = _
  rw [execFirePulseEnd, stands]
  exact congrArg Host.Outcome.next (if_congr (State.pulseEnd_due ..) rfl rfl)

theorem execFireRecoveryEnd_recovering {s t : State} {c : ChannelId} {left : Nat}
    (stands : (s.channel c).state = .recovering left) (passed : t = s.elapse left) : exec (.fireRecoveryEnd c) s =
      .next (if (t.channel c).state = .recovering 0 then t.modChannel c Channel.toIdle else t) := by
  subst passed
  show execFireRecoveryEnd c s = _
  rw [execFireRecoveryEnd, stands]
  exact congrArg Host.Outcome.next (if_congr (State.recoveryEnd_due ..) rfl rfl)

/-! ## Time passes at a channel -/

section
variable {s : State} {us : Nat} (quiet : s.dueAll = [])
  (lanes : ∀ k x, (s.lane k).delay = some x ∨ (s.lane k).idle = some x ∨ (s.lane k).releaseTimer = some x ∨
    (s.lane k).outfeedTimer = some x → us ≤ 1000 * x - s.time.subMs)
include quiet lanes

/-- R96: with no run-out before the end of a passage, time counts. -/
theorem State.elapse_counts (some_ : us ≠ 0) (channels : ∀ d left, (s.channel d).state = .pulsing left ∨
    (s.channel d).state = .recovering left → us ≤ left) : s.elapse us = s.countDown us := by
  refine State.elapse_quiet quiet (State.rests_ge (fun k x runs => ?_) channels) some_
  have after := lanes k x runs
  rw [State.untilTick, if_neg (by omega)]
  exact after

variable {c : ChannelId} (others : ∀ d left, d ≠ c → (s.channel d).state = .pulsing left ∨
    (s.channel d).state = .recovering left → us ≤ left)
include others

/-- R96: a pulse that ends on the way is followed by its recovery from that tick on. -/
theorem State.elapse_pulseEnd {left : Nat} (stands : (s.channel c).state = .pulsing left) (before : left < us)
    (recovers : us ≤ left + (s.channel c).current.recovery ∨ (s.channel c).current.recovery = 0) :
    (s.elapse us).channel c = if (s.channel c).current.recovery = 0 then
        ⟨.idle, (s.channel c).pending.getD (s.channel c).current, none⟩
      else { s.channel c with state := .recovering ((s.channel c).current.recovery - (us - left)) } := by
  have ended : (s.channel c).countDown left = { s.channel c with state := .pulsing 0 } := by
    rw [Channel.countDown, stands, ChannelState.countDown, Nat.sub_self]
  have due : (s.countDown left).dueChannel c = [.pulseEnd c] := by
    rw [State.dueChannel, State.channel_countDown, ended]
    rfl
  have rest : ∀ x, (Channel.endPulse ((s.channel c).countDown left)).state = .pulsing x ∨
      (Channel.endPulse ((s.channel c).countDown left)).state = .recovering x → us - left ≤ x := by
    intro x stroke
    rw [ended, Channel.endPulse] at stroke
    dsimp only at stroke
    split at stroke
    case isTrue => rcases stroke with stroke | stroke <;> cases stroke
    case isFalse some_ =>
      rcases stroke with stroke | stroke
      · cases stroke
      · have length := ChannelState.recovering.inj stroke
        omega
  rw [State.elapse_runOut quiet lanes others (by rw [stands]; rfl) before due (fun _ => rfl) rest,
    State.channel_countDown, State.channel_modChannel, if_pos rfl, State.channel_countDown, ended, Channel.endPulse]
  dsimp only
  split <;> rfl

theorem State.elapse_recoveryEnd {left : Nat} (stands : (s.channel c).state = .recovering left) (before : left < us) :
    (s.elapse us).channel c = ⟨.idle, (s.channel c).pending.getD (s.channel c).current, none⟩ := by
  have ended : (s.channel c).countDown left = { s.channel c with state := .recovering 0 } := by
    rw [Channel.countDown, stands, ChannelState.countDown, Nat.sub_self]
  have due : (s.countDown left).dueChannel c = [.recoveryEnd c] := by
    rw [State.dueChannel, State.channel_countDown, ended]
    rfl
  have rest : ∀ x, (Channel.toIdle ((s.channel c).countDown left)).state = .pulsing x ∨
      (Channel.toIdle ((s.channel c).countDown left)).state = .recovering x → us - left ≤ x := by
    rintro x (stroke | stroke) <;> cases stroke
  rw [State.elapse_runOut quiet lanes others (by rw [stands]; rfl) before due (fun _ => rfl) rest,
    State.channel_countDown, State.channel_modChannel, if_pos rfl, State.channel_countDown, ended]
  rfl

end

/-! ## CHANNEL_SET -/

/-- R182: a frame of a command with no header opens. -/
theorem execGrouped_opens {g : Grouped} {c : Cmd} (isCmd : g.cmd = c) {p : PortId} {s : State} (ready : s.ready p c) :
    groupedStep g p .opens s = s.setPhase p c.code (.incremental ⟨g.start, [], false, none⟩) := by
  rw [groupedStep_opens g ready.1, isCmd, ready.2]
  rfl

/-- R182: a frame of a command with no header that ends with no group. -/
theorem execGrouped_ends {g : Grouped} {c : Cmd} (isCmd : g.cmd = c) (start : g.start = .noHeader) {p : PortId} {s : State}
    (ready : s.ready p c) : groupedStep g p (.ends []) s = s.setResult p .ok := by
  have ended : groupedStep g p (.ends []) s = groupedEnd g p (openGrouped g p s) := by
    simp only [groupedStep, ready.1]
    rfl
  rw [ended, openGrouped, isCmd, ready.2, groupedEnd, isCmd, State.phaseOf_setPhase, start]
  exact (State.closeFrame_setPhase ..).trans (State.closeFrame_none ready.1 _)

theorem channelOfCode_some {b : Byte} {c : ChannelId} (code : b.toNat = c.val) : channelOfCode b = some c := by
  have below : b.toNat < 14 := code ▸ c.isLt
  rw [channelOfCode, dif_pos below]
  exact congrArg some (Fin.ext code)

theorem State.applyTiming_none {s : State} {b : Byte} {t : Timing} (bad : 14 ≤ b.toNat ∨ t.width < 100) :
    s.applyTiming b t = none := by
  unfold State.applyTiming
  rcases bad with above | short
  · rw [channelOfCode, dif_neg (by omega)]
    split <;> rfl
  · exact if_neg (by omega)

theorem State.applyTiming_some {s : State} {b : Byte} {c : ChannelId} {t : Timing} (code : b.toNat = c.val)
    (long : 100 ≤ t.width) : s.applyTiming b t = some (s.modChannel c fun x => x.setTiming t) := by
  rw [State.applyTiming, if_pos long, channelOfCode_some code]
  rfl

/-- The five bytes of a timing group. -/
theorem channelSetApply_eq (i : Incremental) (ch : Byte) (w r : BitVec 16) (s : State) :
    channelSetApply i (ch :: (be16 w.toNat ++ be16 r.toNat)) s =
      applyOrFail (s.applyTiming ch ⟨w.toNat, r.toNat⟩) s i := by
  have bytes : channelSetApply i (ch :: (be16 w.toNat ++ be16 r.toNat)) s = applyOrFail (s.applyTiming ch
      ⟨word16 (BitVec.ofNat 8 (w.toNat / 256)) (BitVec.ofNat 8 w.toNat),
        word16 (BitVec.ofNat 8 (r.toNat / 256)) (BitVec.ofNat 8 r.toNat)⟩) s i := rfl
  rw [bytes, word16_of_value, word16_of_value]

section
variable {p : PortId} {s : State} {i : Incremental} (frame : (s.port p).frame = some ⟨0x17, .incremental i⟩)
  (empty : i.buf = []) (header : i.header = .noHeader) (ch : Byte) (w r : BitVec 16)
include frame empty header

theorem execChannelSet_group : exec (.channelSet p (.bytes (ch :: (be16 w.toNat ++ be16 r.toNat)))) s =
    exec (.channelSetGroup p ch w r) s :=
  congrArg Host.Outcome.next (groupStep_awaiting (g := channelSetGrouped) frame (by rw [header]; nofun) empty _).symm

/-- R99: a timing group as its fifth byte arrives. -/
theorem execChannelSetGroup_eq : ∃ j : Incremental, ∀ u : State, u = s.setPhase p 0x17 (.incremental j) →
    exec (.channelSetGroup p ch w r) s = .next
      ((applyOrFail (u.applyTiming ch ⟨w.toNat, r.toNat⟩) u i).1.setPhase p 0x17
        (.incremental (applyOrFail (u.applyTiming ch ⟨w.toNat, r.toNat⟩) u i).2)) := by
  have started : i.header ≠ .awaited := by rw [header]; nofun
  refine ⟨{ i with buf := ch :: (be16 w.toNat ++ [BitVec.ofNat 8 (r.toNat / 256)]) }, ?_⟩
  rintro u rfl
  rw [← channelSetApply_eq]
  refine congrArg Host.Outcome.next ((groupStep_awaiting (g := channelSetGrouped) frame started empty _).trans ?_)
  exact groupedStep_group (g := channelSetGrouped) frame started empty
    (ch :: (be16 w.toNat ++ [BitVec.ofNat 8 (r.toNat / 256)])) (BitVec.ofNat 8 r.toNat) rfl _ rfl

theorem execChannelSetGroup_bad (bad : 14 ≤ ch.toNat ∨ w.toNat < 100) : exec (.channelSetGroup p ch w r) s =
    .next (s.setPhase p 0x17 (.incremental { i with bad := true })) := by
  obtain ⟨j, group⟩ := execChannelSetGroup_eq frame empty header ch w r
  rw [group _ rfl, State.applyTiming_none bad]
  exact congrArg Host.Outcome.next (State.setPhase_setPhase ..)

theorem execChannelSetGroup_good {c : ChannelId} (code : ch.toNat = c.val) (long : 100 ≤ w.toNat) :
    exec (.channelSetGroup p ch w r) s = .next (s.modChannel c fun x => x.setTiming ⟨w.toNat, r.toNat⟩) := by
  obtain ⟨j, group⟩ := execChannelSetGroup_eq frame empty header ch w r
  rw [group _ rfl, State.applyTiming_some code long]
  have commuted : State.setPhase (State.modChannel (s.setPhase p 0x17 (.incremental j)) c fun x =>
      x.setTiming ⟨w.toNat, r.toNat⟩) p 0x17 (.incremental i) =
        State.modChannel ((s.setPhase p 0x17 (.incremental j)).setPhase p 0x17 (.incremental i)) c fun x =>
          x.setTiming ⟨w.toNat, r.toNat⟩ := rfl
  refine congrArg Host.Outcome.next (commuted.trans ?_)
  rw [State.setPhase_setPhase, State.setPhase_same frame]

end

/-- Settles O49. -/
theorem channelsEndTheirStrokesAndAreTimed : Obligations.ChannelsEndTheirStrokesAndAreTimed := by
  refine ⟨fun c s => ⟨execFirePulseEnd_other, execFireRecoveryEnd_other,
    fun left stands t passed => execFirePulseEnd_pulsing stands passed,
    fun left stands t passed => execFireRecoveryEnd_recovering stands passed, s.elapse_zero,
    fun us some_ quiet lanes others t passed => ⟨fun own => ?_, fun left stands before recovers => ?_,
      fun left stands before => ?_⟩⟩, fun p s => ⟨fun ready =>
        ⟨congrArg Host.Outcome.next (execGrouped_opens (g := channelSetGrouped) rfl ready),
          congrArg Host.Outcome.next (execGrouped_ends (g := channelSetGrouped) rfl rfl ready)⟩,
      fun i frame empty header ch w r => ⟨execChannelSet_group frame empty header ch w r,
        execChannelSetGroup_bad frame empty header ch w r,
        fun c code long => execChannelSetGroup_good frame empty header ch w r code long⟩⟩⟩
  · have counted : s.elapse us = s.countDown us := State.elapse_counts quiet lanes some_ fun d left stroke => by
      by_cases here : d = c
      · exact own left (here ▸ stroke)
      · exact others d left here stroke
    rw [passed, counted]
    exact ⟨(State.countDown_evolves ..).frame.mono, rfl, rfl, fun d =>
      (State.channel_countDown ..).trans (Channel.countDown_eq ..)⟩
  · rw [passed]
    exact State.elapse_pulseEnd quiet lanes others stands before recovers
  · rw [passed]
    exact State.elapse_recoveryEnd quiet lanes others stands before

/-! ## The guard -/

theorem Channel.isPulsing_iff (x : Channel) : x.isPulsing = true ↔ ∃ left, x.state = .pulsing left := by
  unfold Channel.isPulsing
  cases stands : x.state <;> simp [ChannelState.code]

theorem State.fireOutput_iff (s : State) (c : ChannelId) :
    s.fireOutput c = true ↔ (∃ left, (s.channel c).state = .pulsing left) ∧ s.guardOpen = false := by
  rw [← Channel.isPulsing_iff, State.fireOutput, Bool.and_eq_true, Bool.not_eq_true']
  rfl

theorem State.channel_cutPulses (s : State) (c : ChannelId) : s.cutPulses.channel c = (s.channel c).cutShort :=
  Vector.getElem_map ..

theorem State.openGuard_eq (s : State) : s.openGuard = (s.cutPulses.lineFault .guardTrip 0 0 s.pulsing).setHolds
    { s.holds with guardCause := true } := by
  unfold State.openGuard
  dsimp only
  rw [(State.lineFault_evolves ..).frame.holds]
  rfl

/-- Settles O50. -/
theorem theGuardOpensAndCloses : Obligations.TheGuardOpensAndCloses := by
  intro s
  refine ⟨fun opened => congrArg Host.Outcome.next (if_pos opened), fun closed => ⟨s.cutPulses, ?_,
    s.cutPulses_evolves.frame, rfl, rfl, fun c => ?_, fun c => ?_⟩, rfl, s.fireOutput_iff⟩
  · rw [← State.pulsing, ← s.openGuard_eq]
    exact congrArg Host.Outcome.next (if_neg (Bool.eq_false_iff.mp closed))
  · exact s.channel_cutPulses c
  · exact Bool.and_false _

end Sys2Proof.Machine

/-! The bin allocation arbiter: which order it binds to which bin, and what a run comes to. -/

namespace Sys2Proof.Machine

/-! ## The order and the bin of a binding -/

theorem Order.needsBin_iff (o : Order) : o.needsBin = true ↔ (o.state = .queued ∨ o.state = .active) ∧
    o.bins.length < o.maxBins ∧ o.labelled + o.opened < o.ordered := by
  simp only [Order.needsBin, Bool.and_eq_true, Bool.or_eq_true, beq_iff_eq, decide_eq_true_eq, and_assoc]

/-- A choice that goes through a list ends at the one that takes over from all before it and yields to none after. -/
theorem foldl_chooses {α : Type} {f : α → α → α} (picks : ∀ x y, f x y = x ∨ f x y = y) {z : α} {before after : List α}
    (takes : ∀ x ∈ before, f x z = z) (stays : ∀ y ∈ after, f z y = z) {x : α} {xs : List α}
    (all : before ++ z :: after = x :: xs) : xs.foldl f x = z := by
  have ends : after.foldl f z = z := by
    clear all
    induction after with
    | nil => rfl
    | cons y ys ih =>
      rw [List.foldl_cons, stays y List.mem_cons_self]
      exact ih fun y later => stays y (List.mem_cons_of_mem _ later)
  cases before with
  | nil =>
    obtain ⟨rfl, rfl⟩ := List.cons.inj all
    exact ends
  | cons w ws =>
    obtain ⟨rfl, rfl⟩ := List.cons.inj all
    have within : ws.foldl f w ∈ w :: ws := by
      clear all takes
      induction ws generalizing w with
      | nil => exact List.mem_singleton_self w
      | cons v vs ih =>
        rw [List.foldl_cons]
        rcases picks w v with first | second
        · rw [first]
          rcases List.mem_cons.mp (ih w) with here | later
          · exact List.mem_cons.mpr (.inl here)
          · exact List.mem_cons_of_mem _ (List.mem_cons_of_mem _ later)
        · rw [second]
          exact List.mem_cons_of_mem _ (ih v)
    show (ws ++ z :: after).foldl f w = z
    rw [List.foldl_append, List.foldl_cons, takes _ within, ends]

/-- R138: the earliest of the most urgent orders. -/
theorem mostUrgent_of {before after : List Order} {o : Order} (lower : ∀ x ∈ before, x.priority < o.priority)
    (noHigher : ∀ x ∈ after, x.priority ≤ o.priority) : mostUrgent (before ++ o :: after) = some o := by
  have picks : ∀ x y, moreUrgent x y = x ∨ moreUrgent x y = y := fun x y => by
    unfold moreUrgent
    split
    · exact .inr rfl
    · exact .inl rfl
  cases all : before ++ o :: after with
  | nil => exact absurd all (List.append_ne_nil_of_right_ne_nil _ (List.cons_ne_nil _ _))
  | cons x xs =>
    exact congrArg some (foldl_chooses picks (fun y inList => if_pos (lower y inList))
      (fun y inList => if_neg (Nat.not_lt.mpr (noHigher y inList))) all)

theorem mostUrgent_eq_none {xs : List Order} : mostUrgent xs = none ↔ xs = [] := by
  cases xs with
  | nil => exact ⟨fun _ => rfl, fun _ => rfl⟩
  | cons x xs => exact ⟨nofun, nofun⟩

theorem State.nextOrder_none {s : State} : s.nextOrder = none ↔ ∀ o ∈ s.book, o.needsBin = false := by
  rw [State.nextOrder, mostUrgent_eq_none, List.filter_eq_nil_iff]
  simp only [Bool.not_eq_true]

theorem State.lowestFree_none {s : State} : s.lowestFree = none ↔ ∀ b, (s.bin b).state ≠ .free := by
  rw [State.lowestFree, List.find?_eq_none]
  simp only [List.mem_finRange, true_implies, beq_iff_eq, ne_eq]

section
variable {s : State} {before after : List Order} {o : Order} (book : s.book = before ++ o :: after)
include book

theorem State.nextOrder_of_book (needs : o.needsBin = true)
    (lower : ∀ x ∈ before, x.needsBin = true → x.priority < o.priority)
    (noHigher : ∀ x ∈ after, x.needsBin = true → x.priority ≤ o.priority) : s.nextOrder = some o := by
  rw [State.nextOrder, book, List.filter_append, List.filter_cons_of_pos needs]
  refine mostUrgent_of (fun x inList => ?_) fun x inList => ?_
  · exact lower x (List.mem_of_mem_filter inList) (List.of_mem_filter inList)
  · exact noHigher x (List.mem_of_mem_filter inList) (List.of_mem_filter inList)

end

/-- The bins below one and those above it, in the order in which they are gone through. -/
theorem finRange_split (b : BinId) : ∃ below above, List.finRange 10 = below ++ b :: above ∧ (∀ c ∈ below, c < b) ∧
    ∀ c ∈ above, b < c := by
  obtain ⟨below, above, split⟩ := List.append_of_mem (List.mem_finRange b)
  have rising := List.pairwise_lt_finRange 10
  rw [split, List.pairwise_append, List.pairwise_cons] at rising
  obtain ⟨-, ⟨least, -⟩, before⟩ := rising
  exact ⟨below, above, split, fun c isBelow => before c isBelow b List.mem_cons_self, least⟩

theorem State.lowestFree_of {s : State} {b : BinId} (free : (s.bin b).state = .free)
    (lowest : ∀ c, c < b → (s.bin c).state ≠ .free) : s.lowestFree = some b := by
  obtain ⟨below, above, split, less, -⟩ := finRange_split b
  have none_ : ∀ c ∈ below, ¬ ((s.bin c).state == .free) = true := fun c isBelow => by
    rw [beq_iff_eq]
    exact lowest c (less c isBelow)
  rw [State.lowestFree, split, List.find?_append, List.find?_eq_none.mpr none_, Option.none_or]
  exact List.find?_cons_of_pos (p := fun b => (s.bin b).state == .free) (beq_iff_eq.mpr free)

/-! ## Runs of the arbiter -/

theorem State.bindWhile_stops {s : State} (nothing : s.lowestFree = none ∨ s.nextOrder = none) (fuel : Nat) :
    s.bindWhile fuel = s := by
  cases fuel with
  | zero => rfl
  | succ fuel =>
    unfold State.bindWhile
    rcases nothing with noBin | noOrder
    · rw [noBin]
    · rw [noOrder]
      cases s.lowestFree <;> rfl

theorem State.bindWhile_binds {s : State} {b : BinId} {o : Order} (bin : s.lowestFree = some b)
    (order : s.nextOrder = some o) (fuel : Nat) : s.bindWhile (fuel + 1) = (s.bindBin b o).bindWhile fuel := by
  rw [State.bindWhile, bin, order]

/-- R138, R144: what a binding makes of the bins. -/
theorem State.bin_bindBin (s : State) (b c : BinId) (o : Order) : (s.bindBin b o).bin c =
    if c = b then { OrderBin.powerOn with state := .opened, order := some o.id } else s.bin c := by
  have opened : (((s.modBin b fun _ => { OrderBin.powerOn with order := some o.id }).enterBin b .opened).bin c) =
      if c = b then { OrderBin.powerOn with state := .opened, order := some o.id } else s.bin c := by
    rw [State.modBin_enterBin]
    exact State.bin_modBin s b c fun _ => { OrderBin.powerOn with state := .opened, order := some o.id }
  unfold State.bindBin
  dsimp only
  split <;> exact opened

/-- The order bins that are free. -/
def State.freeBins (s : State) : Finset BinId := Finset.univ.filter fun b => (s.bin b).state = .free

theorem State.mem_freeBins (s : State) (b : BinId) : b ∈ s.freeBins ↔ (s.bin b).state = .free := by
  rw [State.freeBins, Finset.mem_filter]
  exact and_iff_right (Finset.mem_univ b)

theorem State.freeBins_bindBin (s : State) (b : BinId) (o : Order) : (s.bindBin b o).freeBins = s.freeBins.erase b := by
  ext c
  rw [Finset.mem_erase, State.mem_freeBins, State.mem_freeBins, State.bin_bindBin]
  by_cases same : c = b
  · simp [same]
  · simp [same]

theorem State.lowestFree_free {s : State} {b : BinId} (lowest : s.lowestFree = some b) : b ∈ s.freeBins := by
  rw [State.mem_freeBins]
  simpa using List.find?_some lowest

/-- A binding takes a bin of those that were free. -/
theorem State.card_bindBin {s : State} {b : BinId} (lowest : s.lowestFree = some b) (o : Order) :
    (s.bindBin b o).freeBins.card + 1 = s.freeBins.card := by
  rw [State.freeBins_bindBin]
  exact Finset.card_erase_add_one (State.lowestFree_free lowest)

/-- R139: a run goes on until no bin is free or no order needs one. -/
theorem State.bindWhile_ends (fuel : Nat) (s : State) (enough : s.freeBins.card ≤ fuel) :
    (s.bindWhile fuel).lowestFree = none ∨ (s.bindWhile fuel).nextOrder = none := by
  induction fuel generalizing s with
  | zero =>
    have empty : s.freeBins = ∅ := Finset.card_eq_zero.mp (Nat.le_zero.mp enough)
    refine .inl (State.lowestFree_none.mpr fun b free => ?_)
    exact Finset.notMem_empty b (empty ▸ (s.mem_freeBins b).mpr free)
  | succ fuel ih =>
    cases bin : s.lowestFree with
    | none => rw [State.bindWhile_stops (.inl bin)]; exact .inl bin
    | some b =>
      cases order : s.nextOrder with
      | none => rw [State.bindWhile_stops (.inr order)]; exact .inr order
      | some o =>
        have taken := State.card_bindBin bin o
        rw [State.bindWhile_binds bin order]
        exact ih _ (by omega)

theorem State.freeBins_card_le (s : State) : s.freeBins.card ≤ 10 := (Finset.card_le_univ _).trans_eq (Fintype.card_fin 10)

/-- More turns than there are free bins come to the same. -/
theorem State.bindWhile_enough (fuel : Nat) (s : State) (enough : s.freeBins.card ≤ fuel) :
    s.bindWhile (fuel + 1) = s.bindWhile fuel := by
  induction fuel generalizing s with
  | zero =>
    rcases State.bindWhile_ends 0 s enough with noBin | noOrder
    · exact State.bindWhile_stops (.inl noBin) 1
    · exact State.bindWhile_stops (.inr noOrder) 1
  | succ fuel ih =>
    cases bin : s.lowestFree with
    | none => rw [State.bindWhile_stops (.inl bin), State.bindWhile_stops (.inl bin)]
    | some b =>
      cases order : s.nextOrder with
      | none => rw [State.bindWhile_stops (.inr order), State.bindWhile_stops (.inr order)]
      | some o =>
        have taken := State.card_bindBin bin o
        rw [State.bindWhile_binds bin order, State.bindWhile_binds bin order, ih _ (by omega)]

theorem State.runArbiter_stops {s : State} (nothing : s.lowestFree = none ∨ s.nextOrder = none) : s.runArbiter = s :=
  State.bindWhile_stops nothing 10

/-- R139: after a binding the run goes on from there. -/
theorem State.runArbiter_binds {s : State} {b : BinId} {o : Order} (bin : s.lowestFree = some b)
    (order : s.nextOrder = some o) : s.runArbiter = (s.bindBin b o).runArbiter := by
  have taken := State.card_bindBin bin o
  have bound := s.freeBins_card_le
  exact (State.bindWhile_binds bin order 9).trans (State.bindWhile_enough 9 _ (by omega)).symm

/-! ## A binding -/

/-- R138: the bin is opened for the order, and the order counts it. -/
def State.bound (s : State) (b : BinId) (o : Order) : State :=
  State.modOrder (State.raise (s.modBin b fun _ => ⟨.opened, some o.id, 0, 0,
    ⟨0, 0, Vector.replicate 8 0, Vector.replicate 8 0, 0, 0, 0, 0⟩, false, []⟩) .binState 1 0 0 b.val) o.id
    (fun x => { x with bins := x.bins ++ [b], opened := x.opened + 1 })

theorem State.bindBin_eq (s : State) (b : BinId) (o : Order) : s.bindBin b o =
    if o.state = .queued then
      ((s.bound b o).modOrder o.id fun x => { x with state := .active }).raise .orderState 1 0 0 o.id.toNat
    else s.bound b o := by
  unfold State.bindBin
  dsimp only
  rw [State.modBin_enterBin]
  rfl

/-- A change of one order of the book, where its id stands once. -/
theorem State.modOrder_book {s : State} {before after : List Order} {o : Order} (book : s.book = before ++ o :: after)
    (once : (s.book.map Order.id).Nodup) (f : Order → Order) :
    (s.modOrder o.id f).book = before ++ f o :: after := by
  rw [book, List.map_append, List.map_cons, List.nodup_middle, List.nodup_cons, List.mem_append, not_or] at once
  obtain ⟨⟨first, last⟩, -⟩ := once
  have others : ∀ {xs : List Order}, o.id ∉ xs.map Order.id → xs.map (fun x => if x.id = o.id then f x else x) = xs := by
    intro xs absent
    refine (List.map_congr_left fun x inList => if_neg fun same => ?_).trans (List.map_id' _)
    exact absent (same ▸ List.mem_map_of_mem inList)
  show s.book.map (fun x => if x.id = o.id then f x else x) = _
  rw [book, List.map_append, List.map_cons, others first, others last, if_pos rfl]

theorem State.book_bindBin {s : State} {before after : List Order} {o : Order} (book : s.book = before ++ o :: after)
    (once : (s.book.map Order.id).Nodup) (stands : o.state = .queued ∨ o.state = .active) (b : BinId) :
    (s.bindBin b o).book = before ++ { o with state := .active, bins := o.bins ++ [b], opened := o.opened + 1 } :: after := by
  have counted : (s.bound b o).book = before ++ { o with bins := o.bins ++ [b], opened := o.opened + 1 } :: after :=
    State.modOrder_book (s := State.raise (s.modBin b _) .binState 1 0 0 b.val) book once _
  rw [s.bindBin_eq]
  split
  case isTrue =>
    have once' : ((s.bound b o).book.map Order.id).Nodup := by
      rw [counted]
      rw [book] at once
      simpa using once
    exact State.modOrder_book (s := s.bound b o) counted once' fun x => { x with state := .active }
  case isFalse other =>
    rw [counted, ← stands.resolve_left other]

theorem State.ports_bindBin (s : State) (b : BinId) (o : Order) : (s.bindBin b o).ports =
    (if o.state = .queued then (s.raise .binState 1 0 0 b.val).raise .orderState 1 0 0 o.id.toNat
    else s.raise .binState 1 0 0 b.val).ports := by
  rw [s.bindBin_eq]
  split <;> rfl

/-- Settles O51. -/
theorem theBinArbiterBinds : Obligations.TheBinArbiterBinds := by
  intro s
  refine ⟨Order.needsBin_iff, fun nothing => ?_, ?_, fun b before after o book needs lower noHigher free lowest => ?_,
    fun b before after o bounds book needs lower noHigher only => ?_⟩
  · refine State.runArbiter_stops ?_
    rw [State.lowestFree_none, State.nextOrder_none]
    exact nothing
  · rw [← State.lowestFree_none, ← State.nextOrder_none]
    exact State.bindWhile_ends 10 s s.freeBins_card_le
  · rintro counted rfl
    rw [State.runArbiter_binds (State.lowestFree_of free lowest) (State.nextOrder_of_book book needs lower noHigher),
      s.bindBin_eq]
    rfl
  · have bin := State.lowestFree_of ((only b).mpr rfl) fun c below free => absurd ((only c).mp free) (Fin.ne_of_lt below)
    have order := State.nextOrder_of_book book needs lower noHigher
    obtain ⟨-, -, -, -, -, once⟩ := bounds
    have run : s.runArbiter = s.bindBin b o := by
      rw [State.runArbiter_binds bin order]
      refine State.runArbiter_stops (.inl (State.lowestFree_none.mpr fun c free => ?_))
      rw [State.bin_bindBin] at free
      split at free
      · cases free
      case isFalse other => exact other ((only c).mp free)
    refine ⟨(State.runArbiter_evolves s).frame, ?_⟩
    rw [run]
    refine ⟨?_, fun c other => ?_, State.book_bindBin book once (o.needsBin_iff.mp needs).1 b, s.ports_bindBin b o⟩
    · rw [State.bin_bindBin, if_pos rfl]
      rfl
    · rw [State.bin_bindBin, if_neg other]

end Sys2Proof.Machine

/-! The commands of the order book. -/

namespace Sys2Proof.Machine

/-! ## ORDER_PUT -/

theorem Order.fieldsGood_iff (o : Order) : o.fieldsGood = true ↔ o.id ≠ 0 ∧ o.gradeSet ≠ 0 ∧ o.profile ≤ 7 ∧
    o.bandMin < o.bandMax ∧ 1 ≤ o.target ∧ o.target ≤ 999 ∧ o.longShare ≤ 100 ∧ 1 ≤ o.ordered ∧ o.ordered ≤ 9999 ∧
    o.priority ≤ 7 ∧ 1 ≤ o.maxBins ∧ o.maxBins ≤ 4 := by
  simp only [Order.fieldsGood, Bool.and_eq_true, bne_iff_ne, decide_eq_true_eq, and_assoc]

theorem State.order_eq_none {s : State} {i : OrderId} : s.order i = none ↔ ∀ x ∈ s.book, x.id ≠ i := by
  rw [State.order, List.find?_eq_none]
  simp only [beq_iff_eq, ne_eq]

section
variable {o : Order} {s : State}

theorem putOrder_full (full : 32 ≤ s.book.length) : putOrder o s = (s, .full) := if_pos full

variable (room : s.book.length < 32)
include room

theorem putOrder_duplicate (twice : ∃ x ∈ s.book, x.id = o.id) : putOrder o s = (s, .duplicate) := by
  have known : (s.order o.id).isSome = true := by
    obtain ⟨x, inBook, same⟩ := twice
    exact Option.isSome_iff_ne_none.mpr fun none_ => State.order_eq_none.mp none_ x inBook same
  exact (if_neg (by omega)).trans (if_pos known)

theorem putOrder_new (fresh : ∀ x ∈ s.book, x.id ≠ o.id) :
    putOrder o s = if o.fieldsGood then (s.acceptOrder o, .ok) else (s, .badField) := by
  have unknown : ¬ (s.order o.id).isSome = true := by
    rw [State.order_eq_none.mpr fresh]
    nofun
  exact (if_neg (by omega)).trans (if_neg unknown)

end

/-- Settles O52. -/
theorem ordersArePut : Obligations.OrdersArePut := by
  rintro p s i1 i0 g pr a1 a0 z1 z0 t1 t0 l1 l0 sh b1 b0 pri mb ready bs o rfl isOrder
  have rule : Cmd.rule .orderPut [i1, i0, g, pr, a1, a0, z1, z0, t1, t0, l1, l0, sh, b1, b0, pri, mb] s = putOrder o s :=
    isOrder ▸ rfl
  have grades : o.gradeSet = g := isOrder ▸ rfl
  refine ⟨fun full => exec_taken ready rfl rfl (rule.trans (putOrder_full full)),
    fun room twice => exec_taken ready rfl rfl (rule.trans (putOrder_duplicate room twice)), fun room fresh => ?_⟩
  rw [putOrder_new room fresh] at rule
  have good := o.fieldsGood_iff
  rw [grades] at good
  refine ⟨fun bad => exec_taken ready rfl rfl (rule.trans (if_neg fun fields => ?_)),
    fun fields => exec_taken ready rfl rfl (rule.trans (if_pos (good.mpr fields)))⟩
  obtain ⟨id, set, fields⟩ := good.mp fields
  rcases bad with none_ | none_ | bad
  · exact id none_
  · exact set none_
  · omega

/-! ## The commands that name an order -/

/-- R129: an order id of 0 and one that the book does not hold. -/
theorem onOrder_zero (f : Order → State → State × Result) {i : OrderId} (zero : i = 0) (s : State) :
    onOrder f i s = (s, .badField) := if_pos zero

theorem onOrder_absent (f : Order → State → State × Result) {i : OrderId} (isId : i ≠ 0) {s : State}
    (absent : ∀ x ∈ s.book, x.id ≠ i) : onOrder f i s = (s, .notFound) := by
  rw [onOrder, if_neg isId, State.order_eq_none.mpr absent]

theorem onOrder_some (f : Order → State → State × Result) {i : OrderId} {o : Order} (isId : i ≠ 0) {s : State}
    (found : s.order i = some o) : onOrder f i s = f o s := by
  rw [onOrder, if_neg isId, found]

/-- R129: each of the five commands puts its own rule to the order that its id names. -/
theorem exec_onOrder {c : Cmd} (listed : c ∈ [Cmd.orderSuspend, .orderResume, .orderAdd, .orderCancel, .orderRetire])
    {p : PortId} {s : State} (ready : s.ready p c) (hi lo n1 n0 : Byte) : ∃ f, ∀ x,
      onOrder f (BitVec.ofNat 16 (256 * hi.toNat + lo.toNat)) s = x →
        exec (frameInstr c p (.ends (if c = .orderAdd then [hi, lo, n1, n0] else [hi, lo]))) s =
          .next (x.1.setResult p x.2) := by
  simp only [List.mem_cons, List.not_mem_nil, or_false] at listed
  rcases listed with rfl | rfl | rfl | rfl | rfl
  · exact ⟨suspendOrder, fun x rule => exec_rule (c := .orderSuspend) (bs := [hi, lo]) ready rfl rfl rule⟩
  · exact ⟨resumeOrder, fun x rule => exec_rule (c := .orderResume) (bs := [hi, lo]) ready rfl rfl rule⟩
  · exact ⟨addBundles (word16 n1 n0), fun x rule =>
      exec_rule (c := .orderAdd) (bs := [hi, lo, n1, n0]) ready rfl rfl rule⟩
  · exact ⟨cancelOrder, fun x rule => exec_rule (c := .orderCancel) (bs := [hi, lo]) ready rfl rfl rule⟩
  · exact ⟨retireOrder, fun x rule => exec_rule (c := .orderRetire) (bs := [hi, lo]) ready rfl rfl rule⟩

theorem suspendOrder_eq (o : Order) (s : State) : suspendOrder o s =
    if o.state = .queued ∨ o.state = .active then (s.enterOrder o.id .suspended, .ok) else (s, .state) := by
  unfold suspendOrder
  cases o.state <;> rfl

theorem addBundles_eq (n : Nat) (o : Order) (s : State) : addBundles n o s =
    if n = 0 ∨ 9999 < o.ordered + n then (s, .badField)
    else if o.state = .queued ∨ o.state = .active ∨ o.state = .suspended then
      ((s.modOrder o.id fun x => { x with ordered := x.ordered + n }).runArbiter, .ok)
    else (s, .state) := by
  unfold addBundles
  split
  · rfl
  · cases o.state <;> rfl

/-- R135: the order enters CANCELLED, or CANCELLING with its OPEN bins drained. -/
theorem cancelOrder_eq (o : Order) (s : State) : cancelOrder o s =
    if o.state = .cancelling ∨ o.state = .complete ∨ o.state = .cancelled then (s, .state)
    else if o.bins = [] then (s.enterOrder o.id .cancelled, .ok)
    else ((o.bins.filter fun b => decide ((s.bin b).state = .opened)).foldl State.drainBin
      (s.enterOrder o.id .cancelling), .ok) := by
  have bound : s.cancelBound o = (o.bins.filter fun b => decide ((s.bin b).state = .opened)).foldl State.drainBin
      (s.enterOrder o.id .cancelling) := by
    have opened : ∀ b, ((s.bin b).state == .opened) = decide ((s.bin b).state = .opened) := fun b =>
      Bool.eq_iff_iff.mpr (beq_iff_eq.trans decide_eq_true_iff.symm)
    unfold State.cancelBound
    simp only [opened]
  unfold cancelOrder
  rw [bound]
  cases o.state <;> rfl

theorem retireOrder_other {o : Order} (noEnd : o.state ≠ .complete) (noCancel : o.state ≠ .cancelled) (s : State) :
    retireOrder o s = (s, .state) := by
  unfold retireOrder
  cases stands : o.state with
  | complete => exact absurd stands noEnd
  | cancelled => exact absurd stands noCancel
  | queued | active | suspended | cancelling => rfl

theorem retireOrder_done {o : Order} (done : o.state = .complete ∨ o.state = .cancelled) (s : State) :
    retireOrder o s = ({ s with book := s.book.eraseP fun x => x.id == o.id }, .ok) := by
  unfold retireOrder
  rcases done with stands | stands <;> rw [stands]

/-- R136: the order that an id finds leaves the book from its place. -/
theorem State.erased_of_order {s : State} {i : OrderId} {o : Order} (found : s.order i = some o) :
    ∃ before after, s.book = before ++ o :: after ∧ (s.book.eraseP fun x => x.id == o.id) = before ++ after := by
  obtain ⟨named, before, after, book, others⟩ := List.find?_eq_some_iff_append.mp found
  have id := State.order_id found
  subst id
  refine ⟨before, after, book, ?_⟩
  rw [book, List.eraseP_append_right _ (by simpa using others)]
  exact congrArg (before ++ ·) (List.eraseP_cons_of_pos (p := fun x : Order => x.id == o.id) named)

/-- Settles O53. -/
theorem orderCommandsActOnTheirOrder : Obligations.OrderCommandsActOnTheirOrder := by
  rintro p s hi lo n1 n0 i n rfl rfl frame isFrame
  refine ⟨fun c listed ready => ?_, fun o isId found enters isEnters => ?_⟩
  · obtain ⟨f, taken⟩ := exec_onOrder listed ready hi lo n1 n0
    rw [isFrame]
    exact ⟨fun zero => taken _ (onOrder_zero f zero s), fun isId absent => taken _ (onOrder_absent f isId absent)⟩
  · have id := State.order_id found
    have enter : ∀ st, s.enterOrder o.id st = enters st := fun st => (isEnters st).symm ▸ id ▸ rfl
    have two : ∀ {c : Cmd} {f : Order → State → State × Result} {x : State × Result}, s.ready p c → c.row.kind = .whole 2 →
        Cmd.rule c = takeOrder f → f o s = x → exec (frameInstr c p (.ends [hi, lo])) s = .next (x.1.setResult p x.2) :=
      fun ready kind rule acts => exec_rule ready kind rfl ((congrFun (congrFun rule _) s).trans
        ((onOrder_some _ isId found).trans acts))
    refine ⟨fun ready => ?_, fun ready => ?_, fun ready => ?_, fun ready => ?_, fun ready => ?_⟩
    · refine (two (c := .orderSuspend) ready rfl rfl (suspendOrder_eq o s)).trans (congrArg Host.Outcome.next ?_)
      rw [next_setResult_ite, enter]
    · refine (two (c := .orderResume) ready rfl rfl rfl).trans (congrArg Host.Outcome.next ?_)
      unfold resumeOrder
      rw [next_setResult_ite, enter]
    · have rule : Cmd.rule .orderAdd [hi, lo, n1, n0] s = _ :=
        (onOrder_some (addBundles (word16 n1 n0)) isId found).trans (addBundles_eq ..)
      refine (exec_rule ready rfl rfl rule).trans (congrArg Host.Outcome.next ?_)
      rw [next_setResult_ite, next_setResult_ite, id]
      rfl
    · refine (two (c := .orderCancel) ready rfl rfl (cancelOrder_eq o s)).trans (congrArg Host.Outcome.next ?_)
      rw [next_setResult_ite, next_setResult_ite, enter, enter]
    · refine ⟨_, two (c := .orderRetire) ready rfl rfl rfl, fun noEnd noCancel => ?_, fun done => ?_⟩
      · rw [retireOrder_other noEnd noCancel]
      · rw [retireOrder_done done]
        exact ⟨rfl, State.erased_of_order found⟩

end Sys2Proof.Machine

/-! What a lowered commitment, a drain and a bin given back do. -/

namespace Sys2Proof.Machine

/-! ## One order changed -/

theorem State.modOrder_modOrder (s : State) (i : OrderId) {f : Order → Order} (id : ∀ o, (f o).id = o.id)
    (g : Order → Order) : (s.modOrder i f).modOrder i g = s.modOrder i fun o => g (f o) := by
  have twice : ∀ o : Order, (if (if o.id = i then f o else o).id = i then g (if o.id = i then f o else o)
      else if o.id = i then f o else o) = if o.id = i then g (f o) else o := by
    intro o
    by_cases named : o.id = i
    · rw [if_pos named, if_pos ((id o).trans named), if_pos named]
    · rw [if_neg named, if_neg named, if_neg named]
  refine congrArg (fun book => { s with book := book }) ((List.map_map ..).trans ?_)
  exact List.map_congr_left fun o _ => twice o

theorem State.order_modOrder (s : State) (i : OrderId) {f : Order → Order} (id : ∀ o, (f o).id = o.id) :
    (s.modOrder i f).order i = (s.order i).map f := by
  unfold State.order State.modOrder
  dsimp only
  induction s.book with
  | nil => rfl
  | cons o book ih =>
    by_cases named : o.id = i
    · have changed : (f o).id = i := (id o).trans named
      rw [List.map_cons, if_pos named, List.find?_cons_of_pos (by simpa using changed),
        List.find?_cons_of_pos (by simpa using named)]
      rfl
    · rw [List.map_cons, if_neg named, List.find?_cons_of_neg (by simpa using named),
        List.find?_cons_of_neg (by simpa using named), ih]

/-! ## A bin that drains -/

theorem State.enterBin_eq (s : State) (b : BinId) (st : BinState) :
    s.enterBin b st = (s.modBin b fun x => { x with state := st }).raise .binState st.code 0 0 b.val := rfl

theorem State.bin_enterBin (s : State) (b : BinId) (st : BinState) :
    (s.enterBin b st).bin b = { s.bin b with state := st } :=
  (State.bin_modBin s b b fun x => { x with state := st }).trans (if_pos rfl)

/-- R159: a DRAINING bin is settled by what its list and its count hold. -/
theorem State.settleBin_eq {s : State} {b : BinId} (draining : (s.bin b).state = .draining) : s.settleBin b =
    if (s.bin b).expected ≠ [] then s else if (s.bin b).dropped = 0 then s.giveBack b 1 else s.enterLabelWait b true := by
  unfold State.settleBin
  by_cases empty : (s.bin b).expected = []
  · rw [if_pos ⟨draining, empty⟩, if_neg (not_not_intro empty)]
  · rw [if_neg fun both => empty both.2, if_pos empty]

theorem State.drainBin_eq (s : State) (b : BinId) : s.drainBin b =
    if (s.bin b).expected ≠ [] then s.enterBin b .draining
    else if (s.bin b).dropped = 0 then (s.enterBin b .draining).giveBack b 1
    else (s.enterBin b .draining).enterLabelWait b true := by
  have settled := State.settleBin_eq (s := s.enterBin b .draining) (b := b) (by rw [s.bin_enterBin])
  rw [s.bin_enterBin] at settled
  exact settled

/-! ## A bin given back -/

/-- R140: a bin leaves its order, which acts on its state when it was its last one. -/
theorem State.unbind_eq {s : State} {i : OrderId} {o : Order} (found : s.order i = some o) (b : BinId) :
    s.unbind b i =
      (let t := s.modOrder i fun x => { x with bins := x.bins.erase b }
      if o.bins.erase b ≠ [] then t
      else if o.state = .cancelling then t.enterOrder i .cancelled
      else if o.state = .active ∨ o.state = .suspended then t.enterOrder i .complete else t) := by
  have after : (s.modOrder i fun x => { x with bins := x.bins.erase b }).order i =
      some { o with bins := o.bins.erase b } := by
    refine (s.order_modOrder i ?_).trans (congrArg (Option.map _) found)
    exact fun _ => rfl
  unfold State.unbind
  dsimp only
  rw [after]
  refine if_congr Iff.rfl rfl ?_
  dsimp only
  cases o.state <;> rfl

/-- R159, R163: a bin given back, with its order's two changes as one. -/
theorem State.giveBack_eq {s : State} {b : BinId} {i : OrderId} {o : Order} (bound : (s.bin b).order = some i)
    (found : s.order i = some o) (falls : Nat) {freed : State}
    (isFreed : freed = ((s.modBin b fun _ => OrderBin.powerOn).enterBin b .free).modOrder i fun x =>
      { x with opened := x.opened - falls, bins := x.bins.erase b }) : s.giveBack b falls =
      (if o.bins.erase b ≠ [] then freed
      else if o.state = .cancelling then freed.enterOrder i .cancelled
      else if o.state = .active ∨ o.state = .suspended then freed.enterOrder i .complete else freed).runArbiter := by
  subst isFreed
  have lowered : (((s.modBin b fun _ => OrderBin.powerOn).enterBin b .free).modOrder i fun x =>
      { x with opened := x.opened - falls }).order i = some { o with opened := o.opened - falls } := by
    refine (State.order_modOrder _ i ?_).trans (congrArg (Option.map _) found)
    exact fun _ => rfl
  unfold State.giveBack
  dsimp only
  rw [bound]
  dsimp only
  rw [State.unbind_eq lowered, State.modOrder_modOrder _ i (f := fun x => { x with opened := x.opened - falls })
    fun _ => rfl]

/-! ## A lowered commitment -/

theorem binOfGate_gateOfBin (b : BinId) : binOfGate (gateOfBin b) = some b := dif_pos b.isLt

/-- R155: a lowered commitment of an order bin. -/
def State.loweredBin (s : State) (b : BinId) (n : StripNum) (k : Nat) (e : Expected) : State :=
  s.modBin b fun x => x.lower n k e

theorem OrderBin.lower_eq (x : OrderBin) (n : StripNum) (k : Nat) (e : Expected) : x.lower n k e = { x with
    expected := x.expected.eraseP fun y => decide (y.number = n ∧ y.index = k)
    shortCommitted := if e.short then x.shortCommitted - 1 else x.shortCommitted } := by
  have names : (fun y : Expected => y.names n k) = fun y => decide (y.number = n ∧ y.index = k) := funext fun y => by
    rw [Expected.names, Bool.eq_iff_iff, Bool.and_eq_true, beq_iff_eq, beq_iff_eq, decide_eq_true_iff]
  unfold OrderBin.lower
  rw [names]
  cases e.short <;> rfl

theorem State.lower_eq {s : State} {b : BinId} {n : StripNum} {k : Nat} {e : Expected}
    (expected : s.expectedOf (gateOfBin b) n k = some e) :
    s.lower (gateOfBin b) n k = (s.loweredBin b n k e).reopenBin b := by
  rw [State.lower, expected, binOfGate_gateOfBin]
  rfl

theorem State.bin_loweredBin (s : State) (b : BinId) (n : StripNum) (k : Nat) (e : Expected) :
    (s.loweredBin b n k e).bin b = (s.bin b).lower n k e := (State.bin_modBin ..).trans (if_pos rfl)

theorem State.reopenBin_closing {s : State} {b : BinId} {o : Order} (closing : (s.bin b).state = .closing)
    (bound : s.boundOrder b = some o) :
    s.reopenBin b = if o.state = .cancelling then s.drainBin b else s.enterBin b .opened := by
  rw [State.reopenBin, closing, bound]
  exact if_congr beq_iff_eq rfl rfl

theorem State.reopenBin_draining {s : State} {b : BinId} (draining : (s.bin b).state = .draining) :
    s.reopenBin b = s.settleBin b := by
  rw [State.reopenBin, draining]

theorem State.reopenBin_rest {s : State} {b : BinId} (noClosing : (s.bin b).state ≠ .closing)
    (noDraining : (s.bin b).state ≠ .draining) : s.reopenBin b = s := by
  unfold State.reopenBin
  cases stands : (s.bin b).state with
  | closing => exact absurd stands noClosing
  | draining => exact absurd stands noDraining
  | free | opened | labelWait | labelled | outOfService => rfl

/-- Settles O54. -/
theorem binsDrainAndAreGivenBack : Obligations.BinsDrainAndAreGivenBack := by
  intro s b
  refine ⟨fun d drains => ?_, fun i o falls bound found once left freed others isFreed => ?_, fun isPartial w waits => ?_,
    fun n k e expected lowered isLowered => ?_⟩
  · rw [drains, s.drainBin_eq]
    rfl
  · have erased : o.bins.erase b = left := by
      rw [others, once.erase_eq_filter]
      exact List.filter_congr fun c _ => by rw [Bool.eq_iff_iff, bne_iff_ne, decide_eq_true_iff]
    have freeing : freed = ((s.modBin b fun _ => OrderBin.powerOn).enterBin b .free).modOrder i fun x =>
        { x with opened := x.opened - falls, bins := x.bins.erase b } := by
      rw [isFreed, State.modBin_enterBin]
      rfl
    rw [State.giveBack_eq bound found falls freeing, erased, apply_ite State.runArbiter, apply_ite State.runArbiter, apply_ite State.runArbiter]
  · subst waits
    unfold State.enterLabelWait
    dsimp only
    rw [State.modBin_enterBin]
    rfl
  · obtain rfl : lowered = s.loweredBin b n k e := isLowered.trans (State.modBin_congr ((s.bin b).lower_eq n k e).symm)
    have bin := s.bin_loweredBin b n k e
    have state : ((s.loweredBin b n k e).bin b).state = (s.bin b).state := by rw [bin]; rfl
    rw [State.lower_eq expected]
    refine ⟨fun noClosing noDraining => ?_, fun closing o bound => ?_, fun draining => ?_⟩
    · exact State.reopenBin_rest (by rwa [state]) (by rwa [state])
    · have stays : (s.loweredBin b n k e).boundOrder b = some o := by
        rw [State.boundOrder, bin]
        exact bound
      exact State.reopenBin_closing (state.trans closing) stays
    · rw [State.reopenBin_draining (state.trans draining), State.settleBin_eq (state.trans draining), bin,
        OrderBin.lower_eq]

end Sys2Proof.Machine

/-! The sort arrival: the bin that is chosen, and the assignment of a piece to it. -/

namespace Sys2Proof.Machine

/-! ## Eligible bins -/

theorem State.boundOrder_iff (s : State) (b : BinId) (o : Order) :
    s.boundOrder b = some o ↔ (s.bin b).order = some o.id ∧ s.order o.id = some o := by
  constructor
  · intro bound
    obtain ⟨i, order, found⟩ := Option.bind_eq_some_iff.mp bound
    have id := State.order_id found
    exact ⟨id ▸ order, id ▸ found⟩
  · exact fun ⟨order, found⟩ => State.boundOrder_eq_some order found

theorem inGradeSet_iff (set : Byte) (grade : Grade) :
    inGradeSet set grade = true ↔ ∃ g : Fin 8, grade = .commercial g ∧ set.getLsbD g.val = true := by
  cases grade with
  | commercial g =>
    refine ⟨fun listed => ⟨g, rfl, listed⟩, ?_⟩
    rintro ⟨h, same, listed⟩
    exact Grade.commercial.inj same ▸ listed
  | reject => exact ⟨nofun, fun ⟨_, same, _⟩ => nomatch same⟩
  | regrade => exact ⟨nofun, fun ⟨_, same, _⟩ => nomatch same⟩

theorem mixHolds_iff (o : Order) (x : OrderBin) (len : Nat) : mixHolds o x len = true ↔
    o.longThreshold ≤ len ∨ x.shortCommitted + 1 ≤ o.target * (100 - o.longShare) / 100 := by
  rw [mixHolds, Order.isShort, Bool.or_eq_true, Bool.not_eq_true', decide_eq_false_iff_not, decide_eq_true_iff, Nat.not_lt]

theorem eligible_iff (x : OrderBin) (o : Order) (r : PieceRec) : eligible x o r = true ↔ x.state = .opened ∧
    o.state = .active ∧ (∃ g : Fin 8, r.grade = .commercial g ∧ o.gradeSet.getLsbD g.val = true) ∧ r.profile = o.profile ∧
    o.bandMin ≤ r.finalLength ∧ r.finalLength ≤ o.bandMax ∧ x.dropped + x.expected.length < o.target ∧
    (o.longThreshold ≤ r.finalLength ∨ x.shortCommitted + 1 ≤ o.target * (100 - o.longShare) / 100) := by
  simp only [eligible, Bool.and_eq_true, beq_iff_eq, decide_eq_true_eq, inGradeSet_iff, mixHolds_iff, and_assoc]
  rfl

/-- R148: a piece is eligible for a bin and its order. -/
theorem State.eligibleOrder_iff (s : State) (r : PieceRec) (b : BinId) (o : Order) : s.eligibleOrder r b = some o ↔
    (s.bin b).order = some o.id ∧ s.order o.id = some o ∧ (s.bin b).state = .opened ∧
    o.state = .active ∧ (∃ g : Fin 8, r.grade = .commercial g ∧ o.gradeSet.getLsbD g.val = true) ∧ r.profile = o.profile ∧
    o.bandMin ≤ r.finalLength ∧ r.finalLength ≤ o.bandMax ∧ (s.bin b).dropped + (s.bin b).expected.length < o.target ∧
    (o.longThreshold ≤ r.finalLength ∨ (s.bin b).shortCommitted + 1 ≤ o.target * (100 - o.longShare) / 100) := by
  rw [State.eligibleOrder, Option.filter_eq_some_iff, s.boundOrder_iff, eligible_iff, and_assoc]

theorem State.eligibleBins_nil {s : State} {r : PieceRec} (none_ : ∀ b o, ¬ s.eligibleOrder r b = some o) :
    s.eligibleBins r = [] := by
  refine List.filterMap_eq_nil_iff.mpr fun b _ => ?_
  rw [Option.map_eq_none_iff]
  exact Option.eq_none_iff_forall_ne_some.mpr (none_ b)

/-- R149: the bin that is before every other eligible one is chosen. -/
theorem State.chosenBin_some {s : State} {r : PieceRec} {b : BinId} {o : Order} (isEligible : s.eligibleOrder r b = some o)
    (best : ∀ c x, s.eligibleOrder r c = some x → c ≠ b → x.priority < o.priority ∨ (x.priority = o.priority ∧
      ((s.bin c).committed < (s.bin b).committed ∨ ((s.bin c).committed = (s.bin b).committed ∧ b < c)))) :
    s.chosenBin r = some (b, o) := by
  obtain ⟨below, above, split, less, more⟩ := finRange_split b
  have entry : ∀ {c x cs}, (c, x) ∈ List.filterMap (fun i => (s.eligibleOrder r i).map fun o => (i, o)) cs →
      c ∈ cs ∧ s.eligibleOrder r c = some x := by
    intro c x cs inList
    obtain ⟨i, inCs, made⟩ := List.mem_filterMap.mp inList
    obtain ⟨y, isEligible, same⟩ := Option.map_eq_some_iff.mp made
    obtain ⟨rfl, rfl⟩ := Prod.mk.inj same
    exact ⟨inCs, isEligible⟩
  have picks : ∀ x y, s.preferred x y = x ∨ s.preferred x y = y := fun x y => by
    unfold State.preferred
    split
    · exact .inr rfl
    · exact .inl rfl
  have list : s.eligibleBins r = below.filterMap (fun i => (s.eligibleOrder r i).map fun o => (i, o)) ++
      (b, o) :: above.filterMap (fun i => (s.eligibleOrder r i).map fun o => (i, o)) := by
    rw [State.eligibleBins, split, List.filterMap_append, List.filterMap_cons_some (by rw [isEligible]; rfl)]
  cases all : s.eligibleBins r with
  | nil =>
    rw [list] at all
    exact absurd all (List.append_ne_nil_of_right_ne_nil _ (List.cons_ne_nil _ _))
  | cons x xs =>
    rw [State.chosenBin, all]
    refine congrArg some (foldl_chooses picks (fun ⟨c, y⟩ inList => ?_) (fun ⟨c, y⟩ inList => ?_) (list.symm.trans all))
    · obtain ⟨isBelow, also⟩ := entry inList
      have under := less c isBelow
      refine if_pos ?_
      rcases best c y also (Fin.ne_of_lt under) with lower | ⟨same, fewer | ⟨-, beyond⟩⟩
      · exact .inl lower
      · exact .inr ⟨same, fewer⟩
      · exact absurd beyond (Fin.lt_asymm under)
    · obtain ⟨isAbove, also⟩ := entry inList
      refine if_neg ?_
      have worse := best c y also (Fin.ne_of_gt (more c isAbove))
      dsimp only
      omega

/-! ## Assignments -/

theorem State.placeGroup_one {s : State} (room : s.fire.schedule.length < 64) (e : FireEntry) :
    s.placeGroup [e] = some { s with fire.schedule := insertEntry s.distance e s.fire.schedule } :=
  if_pos (by rw [List.length_singleton]; omega)

theorem State.placeGroup_refused {s : State} (full : ¬ s.fire.schedule.length < 64) (e : FireEntry) :
    s.placeGroup [e] = none :=
  if_neg (by rw [List.length_singleton]; omega)

theorem State.assignReject_eq (s : State) (r : PieceRec) : s.assignReject r =
    if s.fire.schedule.length < 64 then
      (State.commitReject (State.assignPiece { s with
        fire.schedule := insertEntry s.distance (s.gateEntry r rejectGate) s.fire.schedule } r rejectGate) r
          (s.windowEnd r rejectGate)).traceEntry r.traced .sorted 10 r.index
    else s.gateRefused r rejectGate := by
  by_cases room : s.fire.schedule.length < 64
  · rw [State.assignReject, State.placeGroup_one room, if_pos room]
    rfl
  · rw [State.assignReject, State.placeGroup_refused room, if_neg room]

theorem State.assignOrder_room {s : State} (room : s.fire.schedule.length < 64) (r : PieceRec) (b : BinId) (o : Order) :
    s.assignOrder r b o = (State.commitOrder (State.assignPiece { s with
      fire.schedule := insertEntry s.distance (s.gateEntry r (gateOfBin b)) s.fire.schedule } r (gateOfBin b)) b r
        (s.windowEnd r (gateOfBin b)) o).traceEntry r.traced .sorted b.val r.index := by
  rw [State.assignOrder, State.placeGroup_one room]

theorem State.assignOrder_full {s : State} (full : ¬ s.fire.schedule.length < 64) (r : PieceRec) (b : BinId) (o : Order) :
    s.assignOrder r b o = s.gateRefused r (gateOfBin b) := by
  rw [State.assignOrder, State.placeGroup_refused full]

/-- R150 3 to 5: the bin takes the piece on, and closes when that fills it. -/
theorem State.commitOrder_eq (s : State) (b : BinId) (r : PieceRec) (ends : Pos) (o : Order) {joined : State}
    (joins : joined = s.modBin b fun x => { x with
      expected := x.expected ++ [⟨r.number, r.index, ends, decide (r.finalLength < o.longThreshold)⟩]
      shortCommitted := if r.finalLength < o.longThreshold then x.shortCommitted + 1 else x.shortCommitted }) :
    s.commitOrder b r ends o =
      if (s.bin b).committed + 1 = o.target then
        (joined.modBin b fun x => { x with state := .closing }).raise .binState 2 0 0 b.val
      else joined := by
  have taken : (s.modBin b fun x => { x with
      expected := x.expected ++ [⟨r.number, r.index, ends, o.isShort r.finalLength⟩]
      shortCommitted := x.shortCommitted + (o.isShort r.finalLength).toNat }) = joined := by
    rw [joins]
    refine State.modBin_congr ?_
    unfold Order.isShort
    by_cases short : r.finalLength < o.longThreshold
    · simp [short]
    · simp [short]
  have committed : (joined.bin b).committed = (s.bin b).committed + 1 := by
    rw [joins, State.bin_modBin, if_pos rfl, OrderBin.committed, List.length_append]
    rfl
  unfold State.commitOrder
  dsimp only
  rw [taken, committed]
  rfl

/-! ## The sort arrival -/

theorem State.piece_named {s : State} {n : StripNum} {k : Nat} {r : PieceRec} (found : s.piece n k = some r) :
    r.number = n ∧ r.index = k := by
  simpa using List.find?_some found

theorem State.sortDue_iff (s : State) (r : PieceRec) : s.sortDue r = true ↔
    r.state = .onBelt ∧ r.lead + BitVec.ofNat 24 s.track.marks.sort = s.track.position := by
  rw [State.sortDue, Bool.and_eq_true, beq_iff_eq]
  exact and_congr_right fun _ => beq_iff_eq

theorem State.sortArrival_due {s : State} {n : StripNum} {k : Nat} {r : PieceRec} (found : s.piece n k = some r)
    (due : s.sortDue r = true) : s.sortArrival n k = s.sortPiece r := by
  rw [State.sortArrival, found]
  exact if_pos due

theorem State.sortArrival_waits {s : State} {n : StripNum} {k : Nat}
    (notDue : ∀ r, s.piece n k = some r → s.sortDue r = false) : s.sortArrival n k = s := by
  unfold State.sortArrival
  split
  case h_1 r found => exact if_neg (Bool.eq_false_iff.mp (notDue r found))
  case h_2 => rfl

theorem State.sortPiece_reason {s : State} {r : PieceRec} (reason : r.reason ≠ none) : s.sortPiece r =
    if s.bnc.reject.committed < s.bnc.rejectMax then s.assignReject r else s.unallocated r :=
  if_pos (Option.isSome_iff_ne_none.mpr reason)

theorem State.sortPiece_graded {s : State} {r : PieceRec} (noReason : r.reason = none) : s.sortPiece r =
    match s.chosenBin r with
    | some (i, o) => s.assignOrder r i o
    | none => s.unallocated r := by
  rw [State.sortPiece, noReason]
  rfl

/-- Settles O56. -/
theorem piecesAreSorted : Obligations.PiecesAreSorted := by
  intro n k s
  have arrival : exec (.sortArrival n k) s = .next (s.sortArrival n k) := rfl
  rw [arrival]
  refine ⟨fun notDue => congrArg Host.Outcome.next (State.sortArrival_waits fun r found =>
    Bool.eq_false_iff.mpr fun due => ?_), ?_⟩
  · obtain ⟨onBelt, reached⟩ := (s.sortDue_iff r).mp due
    rcases notDue r found with other | away
    · exact other onBelt
    · exact away reached
  · intro r found onBelt reached riding assigned room eligibleFor rides assigns isRoom isEligible stroke isStroke ends isEnd
      refused isRefused
    obtain ⟨rfl, rfl⟩ := State.piece_named found
    have eligible : ∀ b o, eligibleFor b o ↔ s.eligibleOrder r b = some o := fun b o =>
      (isEligible b o).trans (s.eligibleOrder_iff r b o).symm
    have unallocated : s.unallocated r = riding.traceEntry r.traced .unallocated 0 r.index := by rw [rides]; rfl
    have gateRefused : ∀ b, s.gateRefused r b = refused b := fun b => by rw [isRefused, rides]; rfl
    have gateEntry : ∀ b, s.gateEntry r b = stroke b := fun b => (isStroke b).symm
    have windowEnd : ∀ b, s.windowEnd r b = ends b := fun b => (isEnd b).symm
    rw [State.sortArrival_due found ((s.sortDue_iff r).mpr ⟨onBelt, reached⟩)]
    refine ⟨fun nowhere => ?_, fun reason free => ?_, fun b o noReason fits best => ⟨fun full => ?_,
      fun free joined joins => ?_⟩⟩
    · rcases nowhere with ⟨reason, full⟩ | ⟨noReason, none_⟩
      · rw [State.sortPiece_reason reason,
          if_neg (show ¬ s.bnc.reject.committed < s.bnc.rejectMax from Nat.not_lt.mpr full), unallocated]
      · have noBin : s.chosenBin r = none := by
          rw [State.chosenBin, State.eligibleBins_nil fun b o isIt => none_ b o ((eligible b o).mpr isIt)]
        rw [State.sortPiece_graded noReason, noBin, unallocated]
    · rw [State.sortPiece_reason reason,
        if_pos (show s.bnc.reject.committed < s.bnc.rejectMax from free), s.assignReject_eq, gateRefused,
        gateEntry, windowEnd, assigns]
      exact congrArg Host.Outcome.next (if_congr isRoom.symm rfl rfl)
    · have chosen := State.chosenBin_some ((eligible b o).mp fits) fun c x isIt => best c x ((eligible c x).mpr isIt)
      have noRoom : ¬ s.fire.schedule.length < 64 := fun has => by rw [isRoom.mpr has] at full; cases full
      rw [State.sortPiece_graded noReason, chosen, ← gateRefused]
      exact congrArg Host.Outcome.next (State.assignOrder_full noRoom r b o)
    · have chosen := State.chosenBin_some ((eligible b o).mp fits) fun c x isIt => best c x ((eligible c x).mpr isIt)
      rw [State.sortPiece_graded noReason, chosen]
      refine congrArg Host.Outcome.next ((State.assignOrder_room (isRoom.mp free) r b o).trans ?_)
      rw [gateEntry, windowEnd]
      refine congrArg (State.traceEntry · r.traced .sorted b.val r.index) (State.commitOrder_eq _ b r (ends (gateOfBin b)) o ?_)
      rw [joins, assigns]
      rfl

end Sys2Proof.Machine

/-! Drops, misdrops, the runout, and what the removal of a record does to the rest of the part. -/

namespace Sys2Proof.Machine

/-! ## What a removal does to the rest of the part -/

theorem FireEntry.names_eq (e : FireEntry) (n : StripNum) (k : Nat) :
    e.names n k = decide (e.number = n ∧ e.index = k) := by
  rw [Bool.eq_iff_iff, FireEntry.names, Bool.and_eq_true, beq_iff_eq, beq_iff_eq, decide_eq_true_iff]

theorem State.cancelEntries_names (s : State) (n : StripNum) (k : Nat) : (s.cancelEntries fun e => e.names n k) = { s with
    fire.schedule := s.fire.schedule.filter fun e => decide (¬ (e.number = n ∧ e.index = k)) } :=
  congrArg (fun schedule => { s with fire.schedule := schedule }) (List.filter_congr fun e _ =>
    (congrArg (! ·) (e.names_eq n k)).trans decide_not.symm)

/-- R193, R194: the entry of a removal, and the trace that ends with the last traced record. -/
theorem State.auditRemoval_eq (u : State) (traced : Bool) (k : Nat) (cause : Cause) {noted : State}
    (isNoted : noted = u.traceEntry traced cause.traceKind cause.detail k) : u.auditRemoval traced k cause =
      if traced = true ∧ noted.tracedCount = 0 ∧ noted.audit.trace = .inProgress then
        State.raise { noted with audit.trace := .held } .traceDone
          (128 * noted.audit.truncated.toNat + noted.audit.entries.length % 64) noted.audit.strip 0
          (laneCode noted.audit.lane)
      else noted := by
  subst isNoted
  unfold State.auditRemoval
  generalize u.traceEntry traced cause.traceKind cause.detail k = noted
  by_cases last : traced = true ∧ noted.tracedCount = 0
  · have ends : (traced && noted.tracedCount == 0) = true := by
      rw [last.1, last.2]
      rfl
    exact (if_pos ends).trans (if_congr ⟨fun runs => ⟨last.1, last.2, runs⟩, fun all => all.2.2⟩ rfl rfl)
  · have goesOn : ¬ (traced && noted.tracedCount == 0) = true := fun both => last (by simpa using both)
    exact (if_neg goesOn).trans (if_neg fun all => last ⟨all.1, all.2.1⟩).symm

/-- Settles O59. -/
theorem removalsReachTheirOwners : Obligations.RemovalsReachTheirOwners := by
  intro s cause kind isKind detail isDetail audited isAudited
  have kindOf : kind = cause.traceKind := isKind.trans (by cases cause <;> rfl)
  have detailOf : detail = cause.detail := isDetail.trans (by cases cause <;> rfl)
  have audits : ∀ (u : State) (traced : Bool) (k : Nat), u.auditRemoval traced k cause = audited u traced k :=
    fun u traced k => (u.auditRemoval_eq traced k cause (by rw [← kindOf, ← detailOf])).trans
      (isAudited u traced k _ rfl).symm
  refine ⟨fun r => ?_, fun r cancelled cancels => ?_⟩
  · rw [State.afterStripRemoval, s.cancelEntries_names, audits]
  · rw [State.afterPieceRemoval, s.cancelEntries_names, ← cancels, audits]
    cases at_ : r.state <;> rfl

/-! ## The contents of a bundle after a drop -/

theorem bump_eq (v : Vector Nat 8) (i : Nat) :
    bump v i = Vector.ofFn fun g : Fin 8 => v[g] + if i = g.val then 1 else 0 := by
  unfold bump
  refine Vector.ext fun g inside => ?_
  rw [Vector.getElem_ofFn]
  by_cases place : i < 8
  · rw [dif_pos place, Vector.getElem_set]
    by_cases here : i = g
    · subst here
      rw [if_pos rfl, if_pos rfl]
      rfl
    · rw [if_neg here, if_neg here]
      rfl
  · rw [dif_neg place, if_neg fun here : i = g => place (here ▸ inside)]
    rfl

theorem bumpGrade_eq (v : Vector Nat 8) (grade : Grade) :
    bumpGrade v grade = Vector.ofFn fun g : Fin 8 => v[g] + if grade = .commercial g then 1 else 0 := by
  have same : v = Vector.ofFn fun g : Fin 8 => v[g] + 0 := Vector.ext fun g inside => by
    rw [Vector.getElem_ofFn]
    rfl
  cases grade with
  | commercial i =>
    refine (bump_eq v i.val).trans (congrArg Vector.ofFn (funext fun g => congrArg (v[g] + ·) (if_congr ?_ rfl rfl)))
    rw [Grade.commercial.injEq, Fin.ext_iff]
  | reject => exact same.trans (congrArg Vector.ofFn (funext fun g => congrArg (v[g] + ·) (if_neg nofun).symm))
  | regrade => exact same.trans (congrArg Vector.ofFn (funext fun g => congrArg (v[g] + ·) (if_neg nofun).symm))

theorem toNat_beq_lane (l m : Lane) : (l == m).toNat = if l = m then 1 else 0 := by
  cases l <;> cases m <;> rfl

/-- R153: the bundle after a drop, each of its counts as a sum. -/
theorem Bundle.add_eq (x : Bundle) (o : Order) (r : PieceRec) (dropped : Nat) : x.add o r (dropped == 0) =
    { totalLength := x.totalLength + r.finalLength
      totalArea := x.totalArea + r.finalLength * r.width / 400
      grades := Vector.ofFn fun g => x.grades[g] + (if r.grade = .commercial g then 1 else 0)
      histogram := Vector.ofFn fun g => x.histogram[g] +
        (if (r.finalLength - o.bandMin) * 8 / (o.bandMax - o.bandMin + 1) = g.val then 1 else 0)
      laneA := x.laneA + (if r.lane = .a then 1 else 0)
      laneB := x.laneB + (if r.lane = .b then 1 else 0)
      firstStrip := if dropped = 0 then r.number else x.firstStrip
      lastStrip := r.number } := by
  unfold Bundle.add
  rw [bump_eq, bumpGrade_eq, toNat_beq_lane, toNat_beq_lane]
  exact congrArg (Bundle.mk _ _ _ _ _ _ · _) (if_congr beq_iff_eq rfl rfl)

/-! ## What follows a drop -/

/-- R21: a piece that has dropped keeps the bins as they are. -/
theorem State.afterPieceRemoval_dropped (s : State) (r : PieceRec) :
    s.Evolves [.track, .lanes, .fire, .audit, .ports, .choices] (s.afterPieceRemoval r .dropped) := by
  have kept : s.afterPieceRemoval r .dropped =
      ((s.cancelEntries fun e => e.names r.number r.index).auditRemoval r.traced r.index .dropped).retest := by
    unfold State.afterPieceRemoval
    cases r.state.bin <;> rfl
  rw [kept]
  exact ((State.cancelEntries_evolves ..).comp (ds := [.fire, .audit, .ports]) (State.auditRemoval_evolves ..)).comp
    (State.retest_evolves ..)

/-- R160: composition changes a bin's state to LABELLED or not at all. -/
theorem State.composeLabel_keepsFromDraining {s : State} {b : BinId} (other : (s.bin b).state ≠ .draining) (c : BinId)
    (rest : List BinId) : ((s.composeLabel c rest).bin b).state ≠ .draining := by
  have bin : (s.composeLabel c rest).bin b = if b = c then { s.bin c with state := .labelled } else s.bin b := by
    unfold State.composeLabel
    cases (s.bin c).order <;> exact s.bin_modBin c b fun x => { x with state := .labelled }
  rw [bin]
  by_cases head : b = c
  · rw [if_pos head]
    nofun
  · rwa [if_neg head]

theorem State.composeWhile_keepsFromDraining {b : BinId} (fuel : Nat) {s : State}
    (other : (s.bin b).state ≠ .draining) : ((s.composeWhile fuel).bin b).state ≠ .draining := by
  induction fuel generalizing s with
  | zero => exact other
  | succ fuel ih =>
    unfold State.composeWhile
    split
    case h_1 => exact other
    case h_2 c rest _ =>
      split
      case isTrue => exact ih (s := s.composeLabel c rest) (State.composeLabel_keepsFromDraining other c rest)
      case isFalse => exact other

theorem State.enterLabelWait_notDraining (s : State) (b : BinId) (isPartial : Bool) :
    ((s.enterLabelWait b isPartial).bin b).state ≠ .draining := by
  refine State.composeWhile_keepsFromDraining 2 ?_
  have waits := (s.modBin b fun x => { x with isPartial := isPartial }).bin_enterBin b .labelWait
  exact fun drains => nomatch (congrArg OrderBin.state waits).symm.trans drains

/-- R158, R159: what an order bin with a dropped piece does, by its state, once its list is empty. -/
theorem State.completeBin_settleBin {s : State} {b : BinId} (holds : (s.bin b).dropped ≠ 0) :
    (s.completeBin b).settleBin b =
      if (s.bin b).expected ≠ [] then s
      else if (s.bin b).state = .closing then s.enterLabelWait b false
      else if (s.bin b).state = .draining then s.enterLabelWait b true else s := by
  have settled : ∀ t : State, (t.bin b).state ≠ .draining → t.settleBin b = t := fun t other =>
    if_neg fun both => other both.1
  unfold State.completeBin
  by_cases empty : (s.bin b).expected = []
  · rw [if_neg (not_not_intro empty)]
    by_cases closing : (s.bin b).state = .closing
    · rw [if_pos ⟨closing, empty⟩, if_pos closing, settled _ (s.enterLabelWait_notDraining b false)]
    · rw [if_neg fun both => closing both.1, if_neg closing]
      by_cases draining : (s.bin b).state = .draining
      · rw [if_pos draining, State.settleBin_eq draining, if_neg (not_not_intro empty), if_neg holds]
      · rw [if_neg draining, settled s draining]
  · rw [if_pos empty, if_neg fun both => empty both.2]
    exact if_neg fun both => empty both.2

/-! ## A pulse on a drop eye -/

section
variable {s : State} {b : GateId}

theorem State.dropPulse_stray (empty : s.expected b = []) : s.dropPulse b =
    (s.lineFault .strayDrop 0 0 b.val).setHolds { s.holds with stray := true } := by
  have holds := (s.lineFault_evolves .strayDrop 0 0 b.val).frame.holds
  rw [State.dropPulse, empty, ← holds]
  rfl

variable {e : Expected} {rest : List Expected} {r : PieceRec} (found : s.piece e.number e.index = some r)
include found

theorem State.dropPulse_reject (oldest : s.bnc.reject.expected = e :: rest) {out : State}
    (isOut : out = State.afterPieceRemoval { s with
      bnc.reject := ⟨s.bnc.reject.dropped + 1, rest⟩
      track.belt := s.track.belt.erase (.piece r) } r .dropped) : s.dropPulse 10 =
        if s.bnc.rejectMax ≤ s.bnc.reject.dropped + 1 then out.setHolds { s.holds with rejectFull := true } else out := by
  have listed : s.expected 10 = e :: rest := oldest
  have evolves := State.afterPieceRemoval_dropped { s with
    bnc.reject := ⟨s.bnc.reject.dropped + 1, rest⟩
    track.belt := s.track.belt.erase (.piece r) } r
  rw [← isOut] at evolves
  have pulse : s.dropPulse 10 = out.testReject := by
    rw [State.dropPulse, listed]
    show State.testReject (State.removeDropped _ (s.piece e.number e.index)) = _
    rw [found, oldest, isOut]
    rfl
  rw [pulse, State.testReject, evolves.frame.bnc, evolves.frame.holds]

theorem State.dropPulse_order {i : BinId} {o : Order} (oldest : (s.bin i).expected = e :: rest)
    (bound : s.boundOrder i = some o) {x : OrderBin}
    (isBin : x = { s.bin i with
      expected := rest
      dropped := (s.bin i).dropped + 1
      bundle := (s.bin i).bundle.add o r ((s.bin i).dropped == 0) }) {out : State}
    (isOut : out = State.afterPieceRemoval { s.modBin i (fun _ => x) with track.belt := s.track.belt.erase (.piece r) } r
      .dropped) : s.dropPulse (gateOfBin i) =
        if rest ≠ [] then out
        else if (s.bin i).state = .closing then out.enterLabelWait i false
        else if (s.bin i).state = .draining then out.enterLabelWait i true
        else out := by
  have listed : s.expected (gateOfBin i) = e :: rest := by
    rw [State.expected, binOfGate_gateOfBin]
    exact oldest
  have evolves := State.afterPieceRemoval_dropped { s.modBin i (fun _ => x) with
    track.belt := s.track.belt.erase (.piece r) } r
  rw [← isOut] at evolves
  have bin : out.bin i = x := by
    rw [State.bin, evolves.frame.bnc]
    exact (s.bin_modBin i i fun _ => x).trans (if_pos rfl)
  have counted : (s.modBin i fun y => y.drop (s.boundOrder i) (s.piece e.number e.index)) = s.modBin i fun _ => x := by
    refine State.modBin_congr ?_
    rw [bound, found, isBin, OrderBin.drop, oldest]
    rfl
  have pulse : s.dropPulse (gateOfBin i) = (out.completeBin i).settleBin i := by
    rw [State.dropPulse, listed]
    dsimp only
    rw [binOfGate_gateOfBin]
    dsimp only
    unfold State.dropOrder
    dsimp only
    rw [counted, found, isOut]
    rfl
  have holds : (out.bin i).dropped ≠ 0 := by
    rw [bin, isBin]
    exact Nat.succ_ne_zero _
  rw [pulse, State.completeBin_settleBin holds, bin, isBin]

end

/-- Settles O57. -/
theorem dropEyePulses : Obligations.DropEyePulses := by
  intro s
  refine ⟨fun b empty u isFault => ?_, fun e rest r oldest found out isOut => ?_,
    fun b e rest r o oldest found bound place x counted out isPlace isBin isCounted isOut => ?_⟩
  · rw [isFault]
    exact congrArg Host.Outcome.next (State.dropPulse_stray empty)
  · exact congrArg Host.Outcome.next (State.dropPulse_reject found oldest isOut)
  · subst isPlace
    rw [← (s.bin b).bundle.add_eq o r (s.bin b).dropped] at isBin
    subst isCounted
    exact congrArg Host.Outcome.next (State.dropPulse_order found oldest bound isBin isOut)

/-! ## Misdrops and the runout -/

section
variable {s : State} {n : StripNum} {k : Nat} {r : PieceRec}

theorem State.windowEnds_waits {b : GateId} (notDue : ∀ e, s.expectedOf b n k = some e → e.windowEnd ≠ s.track.position) :
    s.windowEnds b n k = s := by
  refine if_neg fun due => ?_
  obtain ⟨e, expected, reached⟩ := (Option.any_eq_true ..).mp due
  exact notDue e expected (beq_iff_eq.mp reached)

theorem State.windowEnds_due {b : GateId} {e : Expected} (expected : s.expectedOf b n k = some e)
    (reached : e.windowEnd = s.track.position) : s.windowEnds b n k = s.misdrop b n k :=
  if_pos (by rw [expected]; exact beq_iff_eq.mpr reached)

theorem State.misdrop_eq (found : s.piece n k = some r) (b : GateId) : s.misdrop b n k =
    (((s.lower b n k).modPiece n k fun x => { x with state := .riding }).traceEntry r.traced .misdrop 0 k).lineFault
      .misdrop n k b.val := by
  unfold State.misdrop
  rw [found]
  rfl

theorem State.runoutDue_iff (s : State) (r : PieceRec) :
    s.runoutDue r = true ↔ r.lead + BitVec.ofNat 24 s.track.marks.runout = s.track.position := beq_iff_eq

theorem State.runoutArrival_waits (notDue : ∀ r, s.piece n k = some r → s.runoutDue r = false) :
    s.runoutArrival n k = s := by
  unfold State.runoutArrival
  split
  case h_1 r found => exact if_neg (Bool.eq_false_iff.mp (notDue r found))
  case h_2 => rfl

theorem State.runoutArrival_due (found : s.piece n k = some r) (due : s.runoutDue r = true) :
    s.runoutArrival n k = s.runOut r := by
  rw [State.runoutArrival, found]
  exact if_pos due

/-- R165: the runout count rises, saturates, and is tested. -/
theorem State.runOut_eq {out : State}
    (isOut : out = State.afterPieceRemoval { s with track.belt := s.track.belt.erase (.piece r) } r .runout) :
    s.runOut r = if s.bnc.runoutMax ≤ min 65535 (s.bnc.runoutCount + 1) then
        State.setHolds { out with bnc.runoutCount := min 65535 (s.bnc.runoutCount + 1) } { s.holds with runoutFull := true }
      else { out with bnc.runoutCount := min 65535 (s.bnc.runoutCount + 1) } := by
  have evolves := s.removeBelt_evolves (.piece r) .runout
  have removed : s.removeBelt (.piece r) .runout = out := isOut.symm
  rw [removed] at evolves
  unfold State.runOut State.testRunout
  rw [removed]
  dsimp only
  rw [evolves.runouts, evolves.runoutMax, evolves.frame.holds]

end

/-- Settles O58. -/
theorem misdropsAndRunouts : Obligations.MisdropsAndRunouts := by
  intro s n k
  refine ⟨fun b notDue => congrArg Host.Outcome.next (State.windowEnds_waits notDue),
    fun b e r expected reached found => congrArg Host.Outcome.next ((State.windowEnds_due expected reached).trans
      (State.misdrop_eq found b)),
    fun notDue => congrArg Host.Outcome.next (State.runoutArrival_waits fun r found =>
      Bool.eq_false_iff.mpr fun due => notDue r found ((s.runoutDue_iff r).mp due)),
    fun r found reached out isOut => ?_⟩
  have left : s.runoutArrival n k = s.runOut r := State.runoutArrival_due found ((s.runoutDue_iff r).mpr reached)
  rw [State.runOut_eq isOut] at left
  refine ⟨s.runoutArrival n k, rfl, ?_, fun below => ?_, fun full => ?_⟩
  · rw [left]
    split
    · exact (State.setHolds_evolves ..).runouts
    · rfl
  · rw [left, if_neg (Nat.not_le.mpr below)]
  · rw [left, if_pos full]

end Sys2Proof.Machine

/-! The groups of LIMITS_SET. -/

namespace Sys2Proof.Machine

/-! ## A limit against its conditions -/

/-- Table 10-6: a value that meets a limit's conditions is applied to the state, and any other fails. -/
structure State.LimitRow (u : State) (ident v : Nat) (good : Prop) (applied : State → State) : Prop where
  applies : good → u.applyLimit ident v = some (applied u)
  fails : ¬ good → u.applyLimit ident v = none

section
variable {u : State} {ident v : Nat} {good : Prop} {applied : State → State}

theorem State.LimitRow.of_ite [Decidable good] (limit : u.applyLimit ident v = if good then some (applied u) else none) :
    u.LimitRow ident v good applied :=
  ⟨fun fits => limit.trans (if_pos fits), fun unfit => limit.trans (if_neg unfit)⟩

/-- The conditions of a limit, and what it sets off, may be said in other words. -/
theorem State.LimitRow.congr (row : u.LimitRow ident v good applied) {good' : Prop} {applied' : State → State}
    (same : good' ↔ good) (does : good → applied' u = applied u) : u.LimitRow ident v good' applied' :=
  ⟨fun fits => (row.applies (same.mp fits)).trans (congrArg some (does (same.mp fits)).symm),
    fun unfit => row.fails fun fits => unfit (same.mpr fits)⟩

end

theorem MergePolicy.ofCode_some {v : Nat} (known : v ≤ 2) : MergePolicy.ofCode v =
    some (if v = 0 then .primaryA else if v = 1 then .primaryB else .alternate) := by
  interval_cases v <;> rfl

theorem MergePolicy.ofCode_none {v : Nat} (unknown : ¬ v ≤ 2) : MergePolicy.ofCode v = none :=
  List.getElem?_eq_none (Nat.not_le.mp unknown)

theorem State.limitRow_policy (u : State) (v : Nat) : u.LimitRow 0 v (v ≤ 2) fun u => State.arbitrate { u with
    merge.policy := if v = 0 then .primaryA else if v = 1 then .primaryB else .alternate } := by
  refine ⟨fun known => ?_, fun unknown => ?_⟩
  · exact congrArg (Option.map _) (MergePolicy.ofCode_some known)
  · exact congrArg (Option.map _) (MergePolicy.ofCode_none unknown)

theorem Marks.allowStrip_iff (m : Marks) (v : Nat) :
    m.allowStrip v = true ↔ v < m.deadline ∧ m.trim + v ≤ m.endmatch ∧ m.endmatch + v ≤ m.sort := by
  rw [Marks.allowStrip, Bool.and_eq_true, Bool.and_eq_true, decide_eq_true_iff, decide_eq_true_iff, decide_eq_true_iff,
    and_assoc]

theorem State.limitRow_maxStrip (u : State) (v : Nat) : u.LimitRow 4 v (400 ≤ v ∧ v ≤ 24000 ∧ u.gauge.minStrip < v ∧
    v < u.track.marks.deadline ∧ u.track.marks.trim + v ≤ u.track.marks.endmatch ∧
    u.track.marks.endmatch + v ≤ u.track.marks.sort) fun u => State.testCutOff { u with gauge.maxStrip := v } := by
  have row : u.LimitRow 4 v (400 ≤ v ∧ v ≤ 24000 ∧ u.gauge.minStrip < v ∧ u.track.marks.allowStrip v = true)
      fun u => State.testCutOff { u with gauge.maxStrip := v } := .of_ite rfl
  refine row.congr ?_ fun _ => rfl
  rw [Marks.allowStrip_iff]

/-- R111: EM_TRIM waits while the schedule holds an end-match stroke. -/
theorem FireEntry.noEndMatch_iff (es : List FireEntry) :
    es.any FireEntry.endMatch = false ↔ ∀ e ∈ es, e.purpose ≠ .tongue ∧ e.purpose ≠ .groove := by
  rw [List.any_eq_false]
  refine forall₂_congr fun e _ => ?_
  rw [FireEntry.endMatch, Bool.or_eq_true, beq_iff_eq, beq_iff_eq, not_or]

theorem State.limitRow_emTrim (u : State) (v : Nat) :
    u.LimitRow 10 v (v ≤ 200 ∧ ∀ e ∈ u.fire.schedule, e.purpose ≠ .tongue ∧ e.purpose ≠ .groove)
      fun u => { u with cut.emTrim := v } := by
  have row : u.LimitRow 10 v (v ≤ 200 ∧ u.fire.schedule.any FireEntry.endMatch = false)
      fun u => { u with cut.emTrim := v } := .of_ite rfl
  refine row.congr ?_ fun _ => rfl
  rw [FireEntry.noEndMatch_iff]

theorem State.limitRow_unknown (u : State) {ident : Nat} (unknown : 15 ≤ ident) (v : Nat) :
    u.LimitRow ident v False id := by
  obtain ⟨k, rfl⟩ := Nat.exists_eq_add_of_le' unknown
  exact ⟨False.elim, fun _ => rfl⟩

/-! ## A group of LIMITS_SET -/

section
variable {p : PortId} {s : State} {i : Incremental} (frame : (s.port p).frame = some ⟨0x04, .incremental i⟩)
  (header : i.header = .noHeader) (empty : i.buf = [])
include frame header empty

theorem execLimitsSet_group (ident v1 v0 : Byte) : exec (.limitsSet p (.bytes [ident, v1, v0])) s =
    exec (.limitsSetGroup p ident (BitVec.ofNat 16 (256 * v1.toNat + v0.toNat))) s := by
  show Host.Outcome.next (groupedStep limitsGrouped p _ s) = .next (groupStep limitsGrouped p _ s)
  rw [limitBytes_word, groupStep_awaiting (g := limitsGrouped) frame (by rw [header]; nofun) empty]

/-- R190: a limit group as its third byte arrives. -/
theorem execLimitsSetGroup_eq (ident : Byte) (value : BitVec 16) {u : State}
    (isGathered : u = s.setPhase p 0x04 (.incremental { i with buf := [ident, BitVec.ofNat 8 (value.toNat / 256)] })) :
    exec (.limitsSetGroup p ident value) s =
      .next ((applyOrFail (u.applyLimit ident.toNat value.toNat) u i).1.setPhase p 0x04
        (.incremental (applyOrFail (u.applyLimit ident.toNat value.toNat) u i).2)) := by
  have started : i.header ≠ .awaited := by rw [header]; nofun
  have applied : limitsApply i (limitBytes ident value) u = applyOrFail (u.applyLimit ident.toNat value.toNat) u i := by
    rw [limitBytes_eq, limitsApply, word16_of_value]
  rw [← applied]
  refine congrArg Host.Outcome.next ((groupStep_awaiting (g := limitsGrouped) frame started empty _).trans ?_)
  exact groupedStep_group (g := limitsGrouped) frame started empty
    [ident, BitVec.ofNat 8 (value.toNat / 256)] (BitVec.ofNat 8 value.toNat) rfl u isGathered

/-- R190: a limit group is applied when it meets its limit's conditions, and else fails the frame. -/
theorem execLimitsSetGroup_row {ident : Byte} {value : BitVec 16} {good : Prop} {applied : State → State} {u : State}
    (isGathered : u = s.setPhase p 0x04 (.incremental { i with buf := [ident, BitVec.ofNat 8 (value.toNat / 256)] }))
    (row : u.LimitRow ident.toNat value.toNat good applied) :
    (good → exec (.limitsSetGroup p ident value) s = .next ((applied u).setPhase p 0x04 (.incremental i))) ∧
    (¬ good → exec (.limitsSetGroup p ident value) s = .next (s.setPhase p 0x04 (.incremental { i with bad := true }))) := by
  have arrives := execLimitsSetGroup_eq frame header empty ident value isGathered
  refine ⟨fun fits => ?_, fun unfit => ?_⟩
  · rw [arrives, row.applies fits]
    rfl
  · rw [arrives, row.fails unfit, isGathered]
    exact congrArg Host.Outcome.next (State.setPhase_setPhase ..)

end

/-- Settles O60. -/
theorem limitsAreSet : Obligations.LimitsAreSet := by
  intro p s
  refine ⟨fun ready => ⟨congrArg Host.Outcome.next (execGrouped_opens (g := limitsGrouped) rfl ready),
      congrArg Host.Outcome.next (execGrouped_ends (g := limitsGrouped) rfl rfl ready)⟩,
    fun i value frame header empty => ⟨execLimitsSet_group frame header empty, fun v isValue row isRow => ?_⟩⟩
  subst isValue
  have holds : ∀ (ident : Byte) (good : Prop) (applied : State → State),
      (∀ u, u = s.setPhase p 0x04 (.incremental { i with buf := [ident, BitVec.ofNat 8 (value.toNat / 256)] }) →
        u.LimitRow ident.toNat value.toNat good applied) → row ident good applied := fun ident good applied limit =>
    (isRow ident good applied).mpr (execLimitsSetGroup_row frame header empty rfl (limit _ rfl))
  refine ⟨holds _ _ _ fun u _ => u.limitRow_policy _, holds _ _ _ fun u _ => .of_ite rfl,
    holds _ _ _ fun u _ => .of_ite rfl, holds _ _ _ fun u isIt => isIt ▸ .of_ite rfl,
    holds _ _ _ fun u isIt => isIt ▸ State.limitRow_maxStrip _ _, holds _ _ _ fun u _ => .of_ite rfl,
    holds _ _ _ fun u _ => .of_ite rfl, holds _ _ _ fun u _ => .of_ite rfl,
    holds _ _ _ fun u isIt => isIt ▸ .of_ite rfl, holds _ _ _ fun u isIt => isIt ▸ .of_ite rfl,
    holds _ _ _ fun u isIt => isIt ▸ State.limitRow_emTrim _ _, holds _ _ _ fun u _ => .of_ite rfl,
    holds _ _ _ fun u isIt => isIt ▸ .of_ite rfl, holds _ _ _ fun u _ => .of_ite rfl,
    holds _ _ _ fun u _ => .of_ite rfl, fun ident unknown => holds _ _ _ fun u _ => u.limitRow_unknown unknown _⟩

end Sys2Proof.Machine
